-- ==== Sys2Proof/Word.lean ====
section
/-!
DEFINITION. The word types and the index types of the machine: 64-bit words, bytes, and the bounded numbers by
which tiles, contexts, registers, dies, ports and queues are named (01 R15 to R20, 03 R69, 13 R317).
-/
namespace Sys2Proof

/-- A 64-bit register value (R69). -/
abbrev Word := BitVec 64
/-- A byte of memory. -/
abbrev Byte := BitVec 8
/-- A global tile number g = 64 d + t (R19). -/
abbrev TileId := Fin 1024
/-- A hardware context of a tile (R69). -/
abbrev CtxId := Fin 8
/-- A general register x0 to x31 (R69). -/
abbrev Reg := Fin 32
/-- A vector register v0 to v63 (R122). -/
abbrev VReg := Fin 64
/-- A segment, fast-entry register or other eight-fold register number (R74, R111). -/
abbrev SegId := Fin 8
/-- A compute die C0 to C15 (R15). -/
abbrev CDie := Fin 16
/-- A die index of R36: d, 16 + n, 28 LSA, 29 LSB, 30 FM, 31 HX. -/
abbrev DieIdx := Fin 32
/-- A link port 0 to 23 (R52). -/
abbrev PortId := Fin 24
/-- A link die L0 to L11 (R15). -/
abbrev LDie := Fin 12
/-- A queue 0 to 4,095 (R317). -/
abbrev QueueId := Fin 4096

/-- A sparse map from numbers to values: key and value pairs with keys strictly rising. -/
abbrev SMap (α : Type) := List (Nat × α)

end Sys2Proof
end

