-- ==== Sys2Proof/Machine/Bits.lean ====
section
/-!
DEFINITION. Bit fields, byte order, sign extension and sparse maps: the helpers every layer above uses (R12, R14).
-/

namespace Sys2Proof
namespace Machine

/-- Bits [hi:lo] of a number (R12). -/
def fld (w hi lo : Nat) : Nat := (w >>> lo) % 2 ^ (hi + 1 - lo)

/-- A number with bits [hi:lo] replaced by `v` (R12). -/
def setFld (w hi lo v : Nat) : Nat :=
  w % 2 ^ lo + (v % 2 ^ (hi + 1 - lo)) * 2 ^ lo + (w >>> (hi + 1)) * 2 ^ (hi + 1)

/-- Bits [hi:lo] of a register. -/
def wfld (w : Word) (hi lo : Nat) : Nat := fld w.toNat hi lo

/-- A register with bits [hi:lo] replaced. -/
def wset (w : Word) (hi lo v : Nat) : Word := BitVec.ofNat 64 (setFld w.toNat hi lo v)

/-- Bit i of a number. -/
def bitN (w i : Nat) : Bool := w.testBit i

/-- A number from 0 or 1. -/
def b2n (b : Bool) : Nat := if b then 1 else 0

/-- The word of a number, modulo 2^64. -/
def toW (n : Nat) : Word := BitVec.ofNat 64 n

/-- The number `n` of width `w` bits read as two's complement. -/
def sInt (w n : Nat) : Int :=
  if 2 * (n % 2 ^ w) ≥ 2 ^ w then ((n % 2 ^ w : Nat) : Int) - ((2 ^ w : Nat) : Int) else ((n % 2 ^ w : Nat) : Int)

/-- An integer modulo 2^w. -/
def wrapI (w : Nat) (i : Int) : Nat := (i % ((2 ^ w : Nat) : Int)).toNat

/-- The low `w` bits of `n` sign-extended to a 64-bit word (R102 "sext"). -/
def sextW (w n : Nat) : Word := toW (wrapI 64 (sInt w n))

/-- The little-endian number of a byte list (R12). -/
def ofLE : List Byte → Nat
  | [] => 0
  | b :: r => b.toNat + 256 * ofLE r

/-- The `n` little-endian bytes of a number (R12). -/
def toLE : Nat → Nat → List Byte
  | 0, _ => []
  | n + 1, v => BitVec.ofNat 8 v :: toLE n (v / 256)

/-- The bytes of a list from offset `o`, `n` of them; bytes beyond the end read zero. -/
def slice (l : List Byte) (o n : Nat) : List Byte :=
  (List.range n).map (fun i => (l.drop o).getD i 0#8)

/-- The little-endian field of `n` bytes at offset `o` of a structure (R12). -/
def leAt (l : List Byte) (o n : Nat) : Nat := ofLE (slice l o n)

/-- A byte list with the bytes from offset `o` replaced by `v`. -/
def splice (l : List Byte) (o : Nat) (v : List Byte) : List Byte :=
  l.take o ++ v ++ l.drop (o + v.length)

/-- The rounding up of a / b. -/
def ceilDiv (a b : Nat) : Nat := (a + b - 1) / b

/-- The number of bits of n: 0 for 0. -/
def bitlen (n : Nat) : Nat := if n = 0 then 0 else Nat.log2 n + 1

/-- The set bits of n among bits 0 to w - 1. -/
def popc (w n : Nat) : Nat := ((List.range w).filter (fun i => n.testBit i)).length

/-- The positions of the set bits of n among bits 0 to w - 1, ascending. -/
def bitsOf (w n : Nat) : List Nat := (List.range w).filter (fun i => n.testBit i)

/-- The number whose set bits are those i below w with `f i`. -/
def maskOf (w : Nat) (f : Nat → Bool) : Nat :=
  (List.range w).foldl (fun a i => if f i then a + 2 ^ i else a) 0

/-- The value of a sparse map at a key, `d` where no pair holds the key. -/
def mget {α : Type} (m : SMap α) (d : α) (k : Nat) : α :=
  match m with
  | [] => d
  | (j, v) :: r => if j = k then v else mget r d k

/-- The value of a sparse map at a key, if a pair holds it. -/
def mfind {α : Type} (m : SMap α) (k : Nat) : Option α :=
  match m with
  | [] => none
  | (j, v) :: r => if j = k then some v else mfind r k

/-- A sparse map with one key's value replaced, keys kept rising. -/
def mset {α : Type} (m : SMap α) (k : Nat) (v : α) : SMap α :=
  match m with
  | [] => [(k, v)]
  | (j, w) :: r =>
    if k < j then (k, v) :: (j, w) :: r
    else if k = j then (k, v) :: r
    else (j, w) :: mset r k v

/-- A sparse map without one key. -/
def merase {α : Type} (m : SMap α) (k : Nat) : SMap α := m.filter (fun p => p.1 != k)

/-- A sorted list of numbers with one added once. -/
def sIns (l : List Nat) (k : Nat) : List Nat :=
  match l with
  | [] => [k]
  | j :: r => if k < j then k :: j :: r else if k = j then j :: r else j :: sIns r k

/-- A list of numbers without one of them. -/
def sDel (l : List Nat) (k : Nat) : List Nat := l.filter (fun j => j != k)

/-- A list with element i replaced; unchanged where i is beyond the end. -/
def lset {α : Type} (l : List α) (i : Nat) (v : α) : List α := l.set i v

/-- A list with element i updated. -/
def lmod {α : Type} (l : List α) (i : Nat) (f : α → α) : List α :=
  match l[i]? with
  | some v => l.set i (f v)
  | none => l

end Machine
end Sys2Proof
end

