-- ==== Sys2Proof/Syntax.lean ====
section
/-!
DEFINITION. The commands of the module: one constructor of `Instr` per row of opcode_table.json, with the row's
operands. A command names what the sender outside the model chooses: which tile, context, queue, die or port acts,
the fields of an instruction, the bytes that arrive, the reading of a sensor. What comes about is the meaning's.
-/

namespace Sys2Proof

/-- `add`, `sub`, `and`, `or`, `xor` (R102, fn 0 to 4). -/
inductive AluOp where | add | sub | and | or | xor
deriving DecidableEq, Repr
/-- `sll`, `srl`, `sra` (R102). -/
inductive ShiftOp where | sll | srl | sra
deriving DecidableEq, Repr
/-- `slt`, `sltu` (R102). -/
inductive SltOp where | slt | sltu
deriving DecidableEq, Repr
/-- `min`, `max`, `minu`, `maxu` (R102). -/
inductive MinMaxOp where | min | max | minu | maxu
deriving DecidableEq, Repr
/-- `addw`, `subw` (R102). -/
inductive WOp where | addw | subw
deriving DecidableEq, Repr
/-- `clz`, `ctz`, `popc` (R102). -/
inductive CountOp where | clz | ctz | popc
deriving DecidableEq, Repr
/-- `mul`, `mulh`, `mulhu`, `mulhsu` (R102). -/
inductive MulOp where | mul | mulh | mulhu | mulhsu
deriving DecidableEq, Repr
/-- `div`, `divu`, `rem`, `remu` (R102). -/
inductive DivOp where | div | divu | rem | remu
deriving DecidableEq, Repr
/-- `addi`, `slti`, `sltiu` (R102). -/
inductive AddiOp where | addi | slti | sltiu
deriving DecidableEq, Repr
/-- `andi`, `ori`, `xori` (R102). -/
inductive LogicOp where | andi | ori | xori
deriving DecidableEq, Repr
/-- `lb`, `lh`, `lw`, `ld`, `lbu`, `lhu`, `lwu` (R100, Table 8). -/
inductive LoadOp where | lb | lh | lw | ld | lbu | lhu | lwu
deriving DecidableEq, Repr
/-- Access sizes byte, halfword, word, doubleword (R100 SZ). -/
inductive Size where | b | h | w | d
deriving DecidableEq, Repr
/-- `amoadd` to `amoswap` (R102, fn 0 to 8). -/
inductive AmoOp where | add | and | or | xor | min | max | minu | maxu | swap
deriving DecidableEq, Repr
/-- `beq`, `bne`, `blt`, `bge`, `bltu`, `bgeu` (R102). -/
inductive BranchOp where | beq | bne | blt | bge | bltu | bgeu
deriving DecidableEq, Repr
/-- The three CSR writing instructions (R97). -/
inductive CsrOp where | csrw | csrs | csrc
deriving DecidableEq, Repr
/-- The second operand of an element operation: a vector register, or a scalar (R131). -/
inductive VSrc where | vv (r : VReg) | vx (r : Reg)
deriving DecidableEq, Repr
/-- Integer element operations of Table 2 of 05, fn 0x00 to 0x0F. -/
inductive VIntOp where
  | add | sub | and | or | xor | sll | srl | sra | min | max | minu | maxu | mul | mulh | mulhu | macc
deriving DecidableEq, Repr
/-- Floating element operations of Table 2 of 05, fn 0x20 to 0x27. -/
inductive VFpOp where | add | sub | mul | macc | nmsac | min | max | sgnj
deriving DecidableEq, Repr
/-- Compares of Table 2 of 05, fn 0x10 to 0x14 and 0x28 to 0x2A. -/
inductive VCmpOp where | seq | sne | slt | sltu | sle | feq | flt | fle
deriving DecidableEq, Repr
/-- Widening multiplies (R132). -/
inductive VWidenOp where | mul | mulu | macc | fmul | fmacc
deriving DecidableEq, Repr
/-- Dot products (R133). -/
inductive VDotOp where | ee | ef | fe | ff | dot4 | dot4u | dot2
deriving DecidableEq, Repr
/-- Integer reductions (R134). -/
inductive VRedIOp where | sum | max | min | maxu | minu
deriving DecidableEq, Repr
/-- Floating reductions (R134). -/
inductive VRedFOp where | sum | seq | max | min
deriving DecidableEq, Repr
/-- Vector access modes (R137). -/
inductive VMode where | unit | strided (rs2 : Reg) | indexed (vs2 : VReg)
deriving DecidableEq, Repr
/-- Vector atomics (R162). -/
inductive VAmoOp where | add | and | or | xor | min | max | swap | cas
deriving DecidableEq, Repr
/-- What a cache fill answers: the k-th outstanding read of the tile, or the instruction fetch of a context's
current sector (R221). -/
inductive FillSrc where | req (k : Nat) | fetch (c : CtxId)
deriving DecidableEq, Repr
/-- What a home performs: a read or atomic request of the tile, or a write of the tile, by its position (R233). -/
inductive HomeReq where | read (k : Nat) | write (k : Nat)
deriving DecidableEq, Repr
/-- A request packet of the package, by what the state holds of it (R253): a request of a tile; a piece of a COPY's unit
read, or a line of it written; the k-th transaction received at a port; a queue's ring fetch; the k-th put of an update
engine, at its line of P. -/
inductive PktRef where
  | tile (t : TileId) (r : HomeReq)
  | copyRead (q : QueueId) (idx : BitVec 32) (u part : Nat)
  | copyWrite (q : QueueId) (idx : BitVec 32) (u line : Nat)
  | link (p : PortId) (k : Nat)
  | ring (q : QueueId)
  | engine (l : Fin 12) (k : Nat)
deriving DecidableEq, Repr
/-- A point of request arbitration (R261): an output of a router of a compute die, 0 the stack cache, 1 north, 2 east,
3 south, 4 west, 5 the tile port; or the transmit side of a link port. -/
inductive ArbId where
  | router (d : CDie) (r : Fin 64) (out : Fin 6)
  | port (p : PortId)
deriving DecidableEq, Repr
/-- An output of a router of a compute die, in its request or its response mesh (R253). -/
structure RouterOut where
  response : Bool
  die : CDie
  router : Fin 64
  out : Fin 6
deriving DecidableEq, Repr
/-- Where a memory error of a stack is met: in a symbol that reaches the controller (R241); in a DRAM die, which corrects
it itself (R240); in a symbol again before the first correction is written back (R433); in a word of the stack cache's
SRAM with one bit wrong or uncorrectable (R232); in such a word of the line that the request evicts, uncorrectable
(R250). -/
inductive ErrAt where | bond | inner | again | word | badWord | victim
deriving DecidableEq, Repr
/-- One memory error met when a sector is read: sector of the line, symbol 0 to 19, error value (R239, R241). The value
counts for a `bond` error alone. -/
structure SymErr where
  sector : Fin 4
  sym : Fin 20
  val : BitVec 16
  place : ErrAt := .bond
deriving DecidableEq, Repr

/-- Who writes or reads a register from outside the block that holds it (R279, R296, R304, R376): the Lodestar in
charge, the standby one, the host through BAR0, a tile, an INVASIVE debug session. -/
inductive Agent where | activeLs | standbyLs | host | tile (t : TileId) | debug
deriving DecidableEq, Repr

/-- A value written to a register, or the number of the register where the write carries no value, and who writes it (R303,
R376). -/
structure Written (α : Type) where
  by_ : Agent
  val : α
deriving DecidableEq, Repr

/-- The configuration registers of the function (R297 to R301, R316). -/
inductive CfgReg where
  | vendorId | deviceId | revisionId | classCode | subsystemVendor | subsystemId | headerType | interruptPin | interruptLine
  | command | bar0 | bar2 | bar4 | deviceCapabilities | deviceControl | deviceCapabilities2 | deviceCapabilities3 | linkControl
  | linkStatus | pmCapabilities | powerState | serialNumberLow | serialNumberHigh | atsCapability | atsControl
  | pasidCapability | pasidControl | aerCor | aerUnc | aerCorMask | aerUncMask | aerSeverity | aerHeader (dword : Fin 4)
deriving DecidableEq, Repr

/-- Where a host read through a window begins: an offset of BAR2, module memory (R306), or of BAR4, the meter window (R308;
assumption 137). -/
inductive WindowOff where | bar2 (off : Nat) | bar4 (off : Fin 65536)
deriving DecidableEq, Repr

/-- What training of the PCI Express port leaves: width in lanes, rate as Link Status codes it, and whether the partner does
Flit mode (R300). -/
structure LinkUp where
  width : Nat
  rate : Nat
  partnerFlit : Bool
deriving DecidableEq, Repr

/-- Uncorrectable errors found at the PCI Express port, and the header of the request at fault (R298). -/
structure AerUnc where
  bits : BitVec 32
  header : BitVec 128
deriving DecidableEq, Repr

/-- A sideband transport of the Lodestar's management commands (R393). -/
inductive Sideband where | i3c | jtag
deriving DecidableEq, Repr

/-- The I3C target that an SPDM request addresses (R386, R424, R470). -/
inductive SpdmTarget where | lodestar | meter
deriving DecidableEq, Repr

/-- An I3C common command code that assigns a dynamic address: to the target of a static address, or to the target that
won an ENTDAA round (R470). -/
inductive I3cAssign where | setdasa (static : BitVec 7) (dyn : BitVec 7) | entdaa (target : SpdmTarget) (dyn : BitVec 7)
deriving DecidableEq, Repr

/-- What a debug session reads or writes (R390): a CSR of a context, a general register, PC or vector-register byte of a
halted context, a die register, bytes of module memory. -/
inductive DbgPlace where
  | csr (t : TileId) (c : CtxId) (n : BitVec 12)
  | gpr (t : TileId) (c : CtxId) (r : Reg)
  | pc (t : TileId) (c : CtxId)
  | vbyte (t : TileId) (c : CtxId) (r : VReg) (b : Fin 1024)
  | die (i : DieIdx) (off : BitVec 24)
  | mem (a : BitVec 48) (n : Fin 65)
deriving DecidableEq, Repr

/-- Where a register lies: a BAR0 offset (R303), or an offset of a die control space (R36). -/
inductive RegPlace | bar0 (off : Fin 67108864) | ctrl (i : DieIdx) (off : Fin 16777216)
deriving DecidableEq, Repr

/-- A command: one constructor per row of opcode_table.json. -/
inductive Instr where
  -- scalar arithmetic (03 Table 9)
  | addSubLogic (t : TileId) (c : CtxId) (op : AluOp) (rd rs1 rs2 : Reg)
  | shift (t : TileId) (c : CtxId) (op : ShiftOp) (rd rs1 rs2 : Reg)
  | setLessThan (t : TileId) (c : CtxId) (op : SltOp) (rd rs1 rs2 : Reg)
  | minMax (t : TileId) (c : CtxId) (op : MinMaxOp) (rd rs1 rs2 : Reg)
  | addwSubw (t : TileId) (c : CtxId) (op : WOp) (rd rs1 rs2 : Reg)
  | bitCount (t : TileId) (c : CtxId) (op : CountOp) (rd rs1 : Reg)
  | mul (t : TileId) (c : CtxId) (op : MulOp) (rd rs1 rs2 : Reg)
  | divRem (t : TileId) (c : CtxId) (op : DivOp) (rd rs1 rs2 : Reg)
  | addi (t : TileId) (c : CtxId) (op : AddiOp) (rd rs1 : Reg) (imm : BitVec 16)
  | logicImm (t : TileId) (c : CtxId) (op : LogicOp) (rd rs1 : Reg) (imm : BitVec 16)
  | shiftImm (t : TileId) (c : CtxId) (op : ShiftOp) (rd rs1 : Reg) (amt : BitVec 6)
  | lui (t : TileId) (c : CtxId) (rd : Reg) (imm : BitVec 21)
  | lapc (t : TileId) (c : CtxId) (rd : Reg) (imm : BitVec 21)
  -- memory (03 Table 10); `seg` is the named segment, none for the default of R76
  | load (t : TileId) (c : CtxId) (op : LoadOp) (rd rs1 : Reg) (seg : Option SegId) (imm : BitVec 12)
  | store (t : TileId) (c : CtxId) (sz : Size) (rs rs1 : Reg) (seg : Option SegId) (imm : BitVec 12)
  | amo (t : TileId) (c : CtxId) (op : AmoOp) (dw : Bool) (rd rs1 rs2 : Reg) (seg : Option SegId)
  | amocas (t : TileId) (c : CtxId) (dw : Bool) (rd rs1 rs2 : Reg) (seg : Option SegId)
  | dzl (t : TileId) (c : CtxId) (rs1 : Reg) (seg : Option SegId)
  | rclean (t : TileId) (c : CtxId) (rs1 rs2 : Reg) (seg : Option SegId)
  | rinval (t : TileId) (c : CtxId) (rs1 rs2 : Reg) (seg : Option SegId)
  | rcinval (t : TileId) (c : CtxId) (rs1 rs2 : Reg) (seg : Option SegId)
  | macm (t : TileId) (c : CtxId) (sz : Size) (uns sub : Bool) (rs1 rs2 : Reg) (sx sy : BitVec 6)
  -- control, loops and return stack (03 Table 11)
  | branch (t : TileId) (c : CtxId) (op : BranchOp) (rs1 rs2 : Reg) (off : BitVec 16)
  | jump (t : TileId) (c : CtxId) (off : BitVec 26)
  | call (t : TileId) (c : CtxId) (off : BitVec 26)
  | jr (t : TileId) (c : CtxId) (rd rs1 : Reg)
  | callr (t : TileId) (c : CtxId) (rd rs1 : Reg)
  | ret (t : TileId) (c : CtxId)
  | loop (t : TileId) (c : CtxId) (l : Fin 2) (rs : Reg) (len : BitVec 12)
  | loopi (t : TileId) (c : CtxId) (l : Fin 2) (cnt : BitVec 11) (len : BitVec 12)
  | lpclr (t : TileId) (c : CtxId) (l : Fin 2)
  | rspush (t : TileId) (c : CtxId) (rs1 : Reg)
  | rspop (t : TileId) (c : CtxId) (rd : Reg)
  | rsclr (t : TileId) (c : CtxId)
  -- segments, CSRs and system (03 Table 12)
  | segset (t : TileId) (c : CtxId) (n : SegId) (rs1 rs2 : Reg)
  | segnarrow (t : TileId) (c : CtxId) (n : SegId) (mask : BitVec 3) (rs1 rs2 : Reg)
  | segrda (t : TileId) (c : CtxId) (n : SegId) (rd : Reg)
  | segrdl (t : TileId) (c : CtxId) (n : SegId) (rd : Reg)
  | csrr (t : TileId) (c : CtxId) (rd : Reg) (csr : BitVec 12)
  | csrw (t : TileId) (c : CtxId) (rd rs1 : Reg) (csr : BitVec 12)
  | csrs (t : TileId) (c : CtxId) (rd rs1 : Reg) (csr : BitVec 12)
  | csrc (t : TileId) (c : CtxId) (rd rs1 : Reg) (csr : BitVec 12)
  | tgliveWrite (t : TileId) (c : CtxId) (op : CsrOp) (rd rs1 : Reg) (h : Bool)
  | isync (t : TileId) (c : CtxId)
  | fenceG (t : TileId) (c : CtxId)
  | fenceB (t : TileId) (c : CtxId)
  | fenceD (t : TileId) (c : CtxId) (rs1 : Reg)
  | fenceS (t : TileId) (c : CtxId) (rs1 : Reg)
  | yieldw (t : TileId) (c : CtxId)
  | sret (t : TileId) (c : CtxId)
  | eret (t : TileId) (c : CtxId)
  | halt (t : TileId) (c : CtxId)
  | qwait (t : TileId) (c : CtxId) (rd rs1 rs2 : Reg)
  | qwaitTimeout (t : TileId) (c : CtxId)
  | mxq (t : TileId) (c : CtxId) (rd rs1 : Reg)
  | mxwait (t : TileId) (c : CtxId) (rs1 : Reg)
  | brk (t : TileId) (c : CtxId)
  | scall (t : TileId) (c : CtxId) (n : SegId)
  | tgon (t : TileId) (c : CtxId) (rs1 : Reg)
  | tgoff (t : TileId) (c : CtxId)
  | tbr (t : TileId) (c : CtxId) (vs : VReg) (rs1 : Reg)
  | tbrz (t : TileId) (c : CtxId) (vs : VReg) (rs1 : Reg)
  -- events of a context
  | loadResponse (t : TileId) (c : CtxId) (k : Nat)
  | responseFaultEntry (t : TileId) (c : CtxId)
  | interruptEntry (t : TileId) (c : CtxId)
  | ctxTimerExpiry (t : TileId) (c : CtxId)
  | storeCoherenceAck (t : TileId) (k : Nat)
  -- lane engine (05, 06); `m` is true where the instruction is masked by v0
  | vshape (t : TileId) (c : CtxId) (rd rs1 : Reg) (sew : Fin 4) (alt mz : Bool)
  | vmvXS (t : TileId) (c : CtxId) (rd : Reg) (vs : VReg)
  | vmvSX (t : TileId) (c : CtxId) (vs : VReg) (rs1 : Reg)
  | vmvVX (t : TileId) (c : CtxId) (vs : VReg) (rs1 : Reg)
  | vintOp (t : TileId) (c : CtxId) (op : VIntOp) (vd vs1 : VReg) (b : VSrc) (m : Bool)
  | vfpOp (t : TileId) (c : CtxId) (op : VFpOp) (vd vs1 : VReg) (b : VSrc) (m : Bool)
  | vcompare (t : TileId) (c : CtxId) (op : VCmpOp) (vd vs1 : VReg) (b : VSrc) (m : Bool)
  | vmerge (t : TileId) (c : CtxId) (vd vs1 : VReg) (b : VSrc)
  | vfcvt (t : TileId) (c : CtxId) (toInt : Bool) (vd vs1 : VReg) (m : Bool)
  | vfdivVfsqrt (t : TileId) (c : CtxId) (sqrt : Bool) (vd vs1 vs2 : VReg) (m : Bool)
  | vwidenMul (t : TileId) (c : CtxId) (op : VWidenOp) (vd vs1 vs2 : VReg) (m : Bool)
  | vdot (t : TileId) (c : CtxId) (op : VDotOp) (vd vs1 vs2 : VReg) (m : Bool)
  | vreduceInt (t : TileId) (c : CtxId) (op : VRedIOp) (vd vs1 : VReg) (m : Bool)
  | vreduceFp (t : TileId) (c : CtxId) (op : VRedFOp) (vd vs1 : VReg) (m : Bool)
  | vrgather (t : TileId) (c : CtxId) (vd vs1 vs2 : VReg) (m : Bool)
  | vslideup (t : TileId) (c : CtxId) (vd vs1 : VReg) (rs2 : Reg) (m : Bool)
  | vslidedown (t : TileId) (c : CtxId) (vd vs1 : VReg) (rs2 : Reg) (m : Bool)
  | vcompress (t : TileId) (c : CtxId) (vd vs1 : VReg)
  | vid (t : TileId) (c : CtxId) (vd : VReg) (m : Bool)
  | vmacm (t : TileId) (c : CtxId) (fp : Bool) (vd : VReg) (rs1 rs2 : Reg) (m : Bool)
  | vload (t : TileId) (c : CtxId) (vd : VReg) (rs1 : Reg) (seg : Option SegId) (m : Bool) (mode : VMode)
  | vstore (t : TileId) (c : CtxId) (vs : VReg) (rs1 : Reg) (seg : Option SegId) (m : Bool) (mode : VMode)
  | vamo (t : TileId) (c : CtxId) (op : VAmoOp) (vd vs1 vs2 : VReg) (seg : SegId) (m : Bool)
  | laneGroup (t : TileId) (k : Nat)
  | laneFinish (t : TileId) (k : Nat)
  | vloadResponse (t : TileId) (k : Nat)
  -- matrix array (08); `cycle` is the arithmetic-clock cycle of the tile at which the head descriptor issues
  | mxIssue (t : TileId) (cycle : Nat)
  | mxPassStart (t : TileId)
  | mxRowExit (t : TileId)
  | mxComplete (t : TileId)
  -- memory hierarchy (09)
  | mbOpenTimeout (t : TileId) (k : Nat)
  | mbDrain (t : TileId)
  | drainAck (t : TileId)
  | cacheFill (t : TileId) (src : FillSrc)
  | stackCacheRequest (t : TileId) (r : HomeReq) (errs : List SymErr)
  | patrolRead (d : CDie) (inner : Nat) (errs : List SymErr)
  | tempSample (d : CDie) (readings : List (Option (BitVec 8)))
  | tokenRefill (d : CDie)
  | rangeOpStart (t : TileId)
  | rangeOpComplete (t : TileId)
  -- fabric and links (10)
  | arbiterRound (a : RouterOut) (arrivals : List PktRef)
  | censusExpiry (a : ArbId) (i : Fin 10)
  | pathSwitch (t : TileId) (d : DieIdx)
  | bridgeDown (d : DieIdx) (egress : Fin 8)
  | flitTransmit (p : PortId)
  | flitReceive (p : PortId) (bytes : List Byte)
  | nakReplay (p : PortId)
  | laneFail (p : PortId) (lane : Fin 8) (lost : Bool)
  | retrainDone (p : PortId) (good : BitVec 8) (blk : Option (List Byte)) (idle : Bool)
  | portTrainStep (p : PortId) (good : BitVec 8) (blk : List Byte) (ok : Bool)
  | detectRetry (p : PortId)
  | downRetrainTimer (p : PortId)
  | transactionReceive (p : PortId) (errs : List SymErr)
  | routeThrough (p : PortId)
  | linkResponse (p : PortId)
  | requestTimeout (p : PortId) (tag : Nat)
  | messageReceive (errs : List SymErr)
  -- parameter update engines (11)
  | updatePut (l : LDie) (k : Nat) (errs : List SymErr)
  | updateAck (l : LDie)
  | ueReload (a : Agent) (mask : BitVec 64)
  | ueReloadDone (l : LDie) (k : Fin 64) (errs : List SymErr)
  | ueUnpark (a : Agent) (mask : BitVec 64)
  -- host attachment (12)
  | configRequest (r : CfgReg) (w : Option (BitVec 64))
  | configReady (l : LinkUp)
  | bar0BadAccess (read : Bool) (off len : Nat)
  | mirrorRead (off : Fin 67108864) (wide : Bool)
  | mirrorReadTimeout
  | bar2Read (off : WindowOff) (len : Nat) (errs : List SymErr)
  | bar2Write (off : Nat) (bytes : List Byte) (errs : List SymErr)
  | bar4Write
  | hostReadCompletion (id : Nat) (ok : Bool) (data : List Byte)
  | translationCompletion (id : Nat) (ok : Bool) (base size target : Nat) (rd wr : Bool)
  | invalidateRequest (itag : Nat) (pasid : Option Nat) (base size : Nat)
  | invalLimitExpiry (itag : Nat)
  | atsDisable
  | d3hotEntry
  | d0Return
  | l0pNarrow (w : Nat)
  | l0pWiden
  | l1Entry
  | flr
  | hotReset
  -- queues, receipts and the Letterbox (13)
  | doorbell (q : QueueId) (tail : BitVec 32)
  | tileDoorbell (t : TileId) (q : QueueId) (tail : BitVec 32)
  | queueEnable (q : QueueId)
  | queueDisable (q : QueueId)
  | queueResume (q : QueueId)
  | queueCancel (q : QueueId)
  | queueReset (q : QueueId)
  | fetchRunStart (q : QueueId)
  | ringFetchDone (q : QueueId) (host : List Byte) (errs : List SymErr)
  | ringFetchFault (q : QueueId)
  | drainTest (q : QueueId)
  | descriptorStart (q : QueueId)
  | descriptorComplete (q : QueueId) (idx : BitVec 32)
  | copy (q : QueueId) (idx : BitVec 32) (errs : List SymErr)
  | launchStart (q : QueueId)
  | launchEnd (q : QueueId) (idx : BitVec 32)
  | fenceWrite (f : Fin 16384) (v : Written (BitVec 64))
  | fenceClr (f : Written (Fin 16384))
  | serviceDelivery (q : QueueId) (errs : List SymErr)
  | svcDone (t : TileId) (q : QueueId) (status : BitVec 16) (index : BitVec 32)
  | qfPost (t : TileId) (q : QueueId) (count : BitVec 6) (addr : BitVec 42) (errs : List SymErr)
  | watchdogExpiry (q : QueueId)
  | fenceCycleSweep
  | queueResetDone (q : QueueId)
  | letterboxRegister (v : Written (BitVec 64))
  | rringConfig (r : Fin 64) (v : Written (BitVec 64))
  | rringConsWrite (r : Fin 64) (v : Written (BitVec 32))
  | errConsWrite (v : Written (BitVec 32))
  | receiptPost (r : Fin 64)
  | queueWordPost (q : QueueId)
  | globalBlockPost
  | lbHeartbeat
  -- Chart amendments (02)
  | amendFullLoad (host : Option (List Byte)) (flash : Bool) (errs : List SymErr)
  | amendAmendment (host : Option (List Byte)) (flash : Bool) (errs : List SymErr)
  | quiesceEnd
  | quiesceTimeout
  -- service runtime (14)
  | runtimeLaunch
  | svcGenerate (q : QueueId) (errs : List SymErr)
  | svcCancel (q : QueueId)
  | svcRegister (q : QueueId) (errs : List SymErr)
  | svcUnregister (q : QueueId)
  | admission (const model : Nat)
  | halfStep (const model : Nat) (standby : Bool) (half : Fin 2)
  | instanceLoss (const model : Nat)
  -- power (15)
  | tileIdleT1 (t : TileId)
  | tileT2Entry (t : TileId)
  | tileWake (t : TileId)
  | opPointChange (t : TileId)
  | powerInterval (pin : Nat) (est : SMap Nat)
  | overPower (pin : Nat)
  | overpowerClear (d : CDie)
  | overpowerAutoLift
  | pwrbrkAssert
  | pwrbrkDeassert
  | brakeHoldExpiry
  | brakeInterval (pin : Nat) (est : SMap Nat)
  | brakeStuck
  | brakeMask (b : List Byte)
  | m2EnterReq
  | m0ReturnReq
  | m1Entry
  | m1Exit
  -- security, attestation and debug (16)
  | provisionId (x : Sideband)
  | fwUpdate (k : Fin 4) (image : List Byte)
  | spdmGetVersion (m : SpdmTarget)
  | spdmGetCapabilities (m : SpdmTarget) (ver : BitVec 8)
  | spdmNegotiateAlgorithms (m : SpdmTarget) (ver : BitVec 8)
  | spdmGetDigests (m : SpdmTarget) (ver : BitVec 8)
  | spdmGetCertificate (m : SpdmTarget) (ver : BitVec 8) (slot : Fin 16) (off len : BitVec 16)
  | spdmChallenge (m : SpdmTarget) (ver : BitVec 8) (slot : Fin 16) (nonce : List Byte)
  | spdmGetMeasurements (m : SpdmTarget) (ver : BitVec 8) (index : BitVec 8) (sign : Bool) (nonce : List Byte)
  | spdmChunkSend (m : SpdmTarget) (ver : BitVec 8) (handle : BitVec 8) (seq : Nat) (last : Bool) (bytes : List Byte)
  | spdmChunkGet (m : SpdmTarget) (ver : BitVec 8) (handle : BitVec 8) (seq : Nat)
  | getChallenge (x : Sideband)
  | challengeExpiry
  | debugToken (x : Sideband) (b : List Byte)
  | meterAuditAck
  | debugClose (x : Sideband)
  | sessionExpiry
  | debugHalt (t : TileId) (c : CtxId)
  | debugResume (t : TileId) (c : CtxId) (one : Bool)
  | debugAccess (p : DbgPlace) (w : Option (List Byte))
  | lifecycle (b : List Byte) (owner : List Byte)
  | wipeDone
  -- Franking Meter (17)
  | activityPostSend (t : TileId)
  | activityPostReceive
  | energySample (v i : BitVec 24)
  | meterIntervalEnd
  | postmark
  | chartMessage
  | debugEventReceive
  | meterGetChallenge
  | readLedger (index n : Nat)
  | readPostmark (block : Nat)
  | setParam (p : Fin 65536) (v : List Byte) (token : Option (List Byte))
  | seal (target : Fin 256) (token : Option (List Byte))
  | meterProvision
  | meterFwUpdate (image : List Byte) (token : Option (List Byte))
  | windowPush
  | meterFault
  -- errors and recovery (18)
  | errorRecordPost
  | fenceReleaseTest (mask : BitVec 16)
  | releaseTestDone (d : CDie) (pass : Bool)
  | lsHeartbeat (standby : Bool)
  | lsFailover
  | lsPeerLost
  | orphanFence (i : DieIdx)
  -- start-up, reset, trim, pins (19, 20)
  | auxGood (modId : Fin 16)
  | mainGood
  | mainLost
  | auxLost
  | startupStepDone (k : Fin 10) (bad : BitVec 28)
  | perstAssert
  | perstDeassert
  | resetHoldDone
  | hxReset (v : BitVec 64)
  | trimRead (x : Sideband) (save : Bool)
  | trimWrite (b : List Byte)
  | trimSave
  | trimRestore
  | thermalTrip (i : DieIdx)
  | thermtripRelease
  -- registers, and rows that complete the chapters
  | registerWrite (a : Agent) (p : RegPlace) (wide : Bool) (v : BitVec 64)
  | hostCompletionTimeout (trans : Bool) (id : Nat)
  | l1Exit
  | pcieAer (cor : BitVec 32) (unc : AerUnc)
  | dieFatal (i : DieIdx) (reason : BitVec 32)
  | illegalWord (t : TileId) (c : CtxId) (w : BitVec 32)
  | instructionFetchFault (t : TileId) (c : CtxId)
  | spdmUnsupportedRequest (m : SpdmTarget) (ver : BitVec 8)
  | pldmOwnerReset
  | i3cCcc (a : I3cAssign)
  | meterChallengeExpiry
deriving DecidableEq, Repr

end Sys2Proof
end

