-- ==== Sys2Proof/Decode.lean ====
section
/-!
DEFINITION. The instruction words of the scalar core and the lane engine (03 R100 to R102, 05 R147, R148, 06 R154 to
R162): the word of each instruction command, and the command of each word, total and rejecting every word that R101
or R148 makes illegal. No row of opcode_table.json gives bits, so `decodeTableWord` answers none.
-/

namespace Sys2Proof
open Machine

/-- The table gives no row any bits: no word spells a command by it. -/
def decodeTableWord (_nbits _w : Nat) : Option Instr := none

/-- Format R (R100). -/
def fmtR (op rd rs1 rs2 fn : Nat) : Nat := op * 2 ^ 26 + rd * 2 ^ 21 + rs1 * 2 ^ 16 + rs2 * 2 ^ 11 + fn
/-- Format I (R100). -/
def fmtI (op rd rs1 imm : Nat) : Nat := op * 2 ^ 26 + rd * 2 ^ 21 + rs1 * 2 ^ 16 + imm
/-- S and SEG of a named or default segment (R100). -/
def segS (seg : Option SegId) : Nat := match seg with | some n => 8 + n.val | none => 0
/-- Format M (R100). -/
def fmtM (op rd rs1 : Nat) (seg : Option SegId) (imm : Nat) : Nat :=
  op * 2 ^ 26 + rd * 2 ^ 21 + rs1 * 2 ^ 16 + segS seg * 2 ^ 12 + imm
/-- Format A (R100). -/
def fmtA (op rd rs1 rs2 : Nat) (seg : Option SegId) (sz fn : Nat) : Nat :=
  op * 2 ^ 26 + rd * 2 ^ 21 + rs1 * 2 ^ 16 + rs2 * 2 ^ 11 + segS seg * 2 ^ 7 + sz * 2 ^ 5 + fn
/-- Format V (R147). -/
def fmtV (op vd vs1 vs2 m fn : Nat) : Nat :=
  op * 2 ^ 26 + vd * 2 ^ 20 + vs1 * 2 ^ 14 + vs2 * 2 ^ 8 + m * 2 ^ 7 + fn
/-- Format VC (R147). -/
def fmtVC (rd rs1 vs fn sew alt mz : Nat) : Nat :=
  0x3E * 2 ^ 26 + rd * 2 ^ 21 + rs1 * 2 ^ 16 + vs * 2 ^ 10 + fn * 2 ^ 6 + sew * 2 ^ 4 + alt * 2 ^ 3 + mz * 2 ^ 2
/-- Format VM (R147). -/
def fmtVM (vd rs1 : Nat) (seg : Option SegId) (m st : Nat) (mode : VMode) : Nat :=
  0x3D * 2 ^ 26 + vd * 2 ^ 20 + rs1 * 2 ^ 15 + segS seg * 2 ^ 11 + m * 2 ^ 10 + st * 2 ^ 9 +
    (match mode with | .unit => 0 | .strided r => 2 ^ 7 + r.val | .indexed v => 2 * 2 ^ 7 + v.val)

/-- Position of a value in the list of its kind: the fn or op offset of an operation. -/
def idxOf {α : Type} [DecidableEq α] (l : List α) (a : α) : Nat := (l.findIdx? (fun x => decide (x = a))).getD 0

/-- Operations in the order of their fn values (Tables 8 to 10 of 03, Tables 2, 3 and 6 of 05, R162). -/
def aluOps : List AluOp := [.add, .sub, .and, .or, .xor]
def shiftOps : List ShiftOp := [.sll, .srl, .sra]
def sltOps : List SltOp := [.slt, .sltu]
def minMaxOps : List MinMaxOp := [.min, .max, .minu, .maxu]
def wOps : List WOp := [.addw, .subw]
def countOps : List CountOp := [.clz, .ctz, .popc]
def mulOps : List MulOp := [.mul, .mulh, .mulhu, .mulhsu]
def divOps : List DivOp := [.div, .divu, .rem, .remu]
def logicOps : List LogicOp := [.andi, .ori, .xori]
def loadOps : List LoadOp := [.lb, .lh, .lw, .ld, .lbu, .lhu, .lwu]
def sizes : List Size := [.b, .h, .w, .d]
def amoOps : List AmoOp := [.add, .and, .or, .xor, .min, .max, .minu, .maxu, .swap]
def branchOps : List BranchOp := [.beq, .bne, .blt, .bge, .bltu, .bgeu]
def csrOps : List CsrOp := [.csrw, .csrs, .csrc]
def vintOps : List VIntOp :=
  [.add, .sub, .and, .or, .xor, .sll, .srl, .sra, .min, .max, .minu, .maxu, .mul, .mulh, .mulhu, .macc]
def vfpOps : List VFpOp := [.add, .sub, .mul, .macc, .nmsac, .min, .max, .sgnj]
def vcmpIOps : List VCmpOp := [.seq, .sne, .slt, .sltu, .sle]
def vcmpFOps : List VCmpOp := [.feq, .flt, .fle]
def vwidenOps : List VWidenOp := [.mul, .mulu, .macc, .fmul, .fmacc]
def vdotOps : List VDotOp := [.ee, .ef, .fe, .ff, .dot4, .dot4u, .dot2]
def vredIOps : List VRedIOp := [.sum, .max, .min, .maxu, .minu]
def vredFOps : List VRedFOp := [.sum, .seq, .max, .min]
def vamoOps : List VAmoOp := [.add, .and, .or, .xor, .min, .max, .swap, .cas]

/-- fn[6] and the field [13:8] of a second operand (R147). -/
def vsrcBits (b : VSrc) : Nat × Nat := match b with | .vv r => (0, r.val) | .vx r => (64, r.val)

/-- fn[5:0] of a compare (Table 2 of 05). -/
def vcmpFn (op : VCmpOp) : Nat :=
  match op with
  | .feq => 0x28 | .flt => 0x29 | .fle => 0x2A
  | o => 0x10 + idxOf vcmpIOps o

/-- The 32-bit word of an instruction command; none for a command that is no instruction (R100, R147). -/
def encodeWord (i : Instr) : Option Nat :=
  match i with
  | .addSubLogic _ _ op rd a b => some (fmtR 0x01 rd a b (idxOf aluOps op))
  | .shift _ _ op rd a b => some (fmtR 0x01 rd a b (5 + idxOf shiftOps op))
  | .setLessThan _ _ op rd a b => some (fmtR 0x01 rd a b (8 + idxOf sltOps op))
  | .minMax _ _ op rd a b => some (fmtR 0x01 rd a b (10 + idxOf minMaxOps op))
  | .addwSubw _ _ op rd a b => some (fmtR 0x01 rd a b (14 + idxOf wOps op))
  | .bitCount _ _ op rd a => some (fmtR 0x01 rd a 0 (16 + idxOf countOps op))
  | .mul _ _ op rd a b => some (fmtR 0x02 rd a b (idxOf mulOps op))
  | .divRem _ _ op rd a b => some (fmtR 0x02 rd a b (4 + idxOf divOps op))
  | .addi _ _ op rd a imm =>
    some (fmtI (match op with | .addi => 0x03 | .slti => 0x07 | .sltiu => 0x08) rd a imm.toNat)
  | .logicImm _ _ op rd a imm => some (fmtI (0x04 + idxOf logicOps op) rd a imm.toNat)
  | .shiftImm _ _ op rd a n => some (fmtI 0x09 rd a (idxOf shiftOps op * 64 + n.toNat))
  | .lui _ _ rd imm => some (0x0A * 2 ^ 26 + rd.val * 2 ^ 21 + imm.toNat)
  | .lapc _ _ rd imm => some (0x0B * 2 ^ 26 + rd.val * 2 ^ 21 + imm.toNat)
  | .load _ _ op rd a seg imm => some (fmtM (0x10 + idxOf loadOps op) rd a seg imm.toNat)
  | .store _ _ sz rs a seg imm => some (fmtM (0x18 + idxOf sizes sz) rs a seg imm.toNat)
  | .amo _ _ op dw rd a b seg => some (fmtA 0x1C rd a b seg (2 + b2n dw) (idxOf amoOps op))
  | .amocas _ _ dw rd a b seg => some (fmtA 0x1C rd a b seg (2 + b2n dw) 9)
  | .dzl _ _ a seg => some (fmtA 0x1D 0 a 0 seg 0 0)
  | .rclean _ _ a b seg => some (fmtA 0x1D 1 a b seg 0 0)
  | .rinval _ _ a b seg => some (fmtA 0x1D 2 a b seg 0 0)
  | .rcinval _ _ a b seg => some (fmtA 0x1D 3 a b seg 0 0)
  | .macm _ _ sz u sub a b sx sy =>
    some (0x1E * 2 ^ 26 + a.val * 2 ^ 21 + b.val * 2 ^ 16 + idxOf sizes sz * 2 ^ 14 + b2n u * 2 ^ 13 + b2n sub * 2 ^ 12
      + sx.toNat * 2 ^ 6 + sy.toNat)
  | .branch _ _ op a b off => some (fmtI (0x20 + idxOf branchOps op) a b off.toNat)
  | .jump _ _ off => some (0x26 * 2 ^ 26 + off.toNat)
  | .call _ _ off => some (0x27 * 2 ^ 26 + off.toNat)
  | .jr _ _ rd a => some (fmtR 0x28 rd a 0 0)
  | .callr _ _ rd a => some (fmtR 0x28 rd a 0 1)
  | .ret _ _ => some (fmtR 0x28 0 0 0 2)
  | .loop _ _ l rs len => some (0x2B * 2 ^ 26 + l.val * 2 ^ 25 + rs.val * 2 ^ 18 + len.toNat)
  | .loopi _ _ l cnt len => some (0x2B * 2 ^ 26 + l.val * 2 ^ 25 + 2 ^ 23 + cnt.toNat * 2 ^ 12 + len.toNat)
  | .lpclr _ _ l => some (0x2B * 2 ^ 26 + l.val * 2 ^ 25 + 2 * 2 ^ 23)
  | .rspush _ _ a => some (fmtR 0x2D 0 a 0 0)
  | .rspop _ _ rd => some (fmtR 0x2D rd 0 0 1)
  | .rsclr _ _ => some (fmtR 0x2D 0 0 0 2)
  | .segset _ _ n a b => some (fmtR 0x30 0 a b (n.val * 256))
  | .segnarrow _ _ n mask a b => some (fmtR 0x30 mask.toNat a b (n.val * 256 + 1))
  | .segrda _ _ n rd => some (fmtR 0x30 rd 0 0 (n.val * 256 + 2))
  | .segrdl _ _ n rd => some (fmtR 0x30 rd 0 0 (n.val * 256 + 3))
  | .csrr _ _ rd csr => some (fmtI 0x38 rd 0 csr.toNat)
  | .csrw _ _ rd a csr => some (fmtI 0x38 rd a (1 * 2 ^ 12 + csr.toNat))
  | .csrs _ _ rd a csr => some (fmtI 0x38 rd a (2 * 2 ^ 12 + csr.toNat))
  | .csrc _ _ rd a csr => some (fmtI 0x38 rd a (3 * 2 ^ 12 + csr.toNat))
  | .tgliveWrite _ _ op rd a h => some (fmtI 0x38 rd a ((1 + idxOf csrOps op) * 2 ^ 12 + 0x0D1 + b2n h))
  | .isync _ _ => some (fmtR 0x39 0 0 0 0)
  | .fenceG _ _ => some (fmtR 0x39 0 0 0 1)
  | .fenceB _ _ => some (fmtR 0x39 0 0 0 2)
  | .fenceD _ _ a => some (fmtR 0x39 0 a 0 3)
  | .fenceS _ _ a => some (fmtR 0x39 0 a 0 4)
  | .yieldw _ _ => some (fmtR 0x39 0 0 0 5)
  | .sret _ _ => some (fmtR 0x39 0 0 0 6)
  | .eret _ _ => some (fmtR 0x39 0 0 0 7)
  | .halt _ _ => some (fmtR 0x39 0 0 0 8)
  | .qwait _ _ rd a b => some (fmtR 0x39 rd a b 9)
  | .mxq _ _ rd a => some (fmtR 0x39 rd a 0 10)
  | .mxwait _ _ a => some (fmtR 0x39 0 a 0 11)
  | .brk _ _ => some (fmtR 0x39 0 0 0 12)
  | .scall _ _ n => some (fmtR 0x39 n.val 0 0 13)
  | .tgon _ _ a => some (fmtR 0x39 0 a 0 14)
  | .tgoff _ _ => some (fmtR 0x39 0 0 0 15)
  | .tbr _ _ vs a => some (fmtVC 0 a vs 4 0 0 0)
  | .tbrz _ _ vs a => some (fmtVC 0 a vs 5 0 0 0)
  | .vshape _ _ rd a sew alt mz => some (fmtVC rd a 0 0 sew (b2n alt) (b2n mz))
  | .vmvXS _ _ rd vs => some (fmtVC rd 0 vs 1 0 0 0)
  | .vmvSX _ _ vs a => some (fmtVC 0 a vs 2 0 0 0)
  | .vmvVX _ _ vs a => some (fmtVC 0 a vs 3 0 0 0)
  | .vintOp _ _ op vd a b m => some (fmtV 0x3C vd a (vsrcBits b).2 (b2n m) ((vsrcBits b).1 + idxOf vintOps op))
  | .vfpOp _ _ op vd a b m => some (fmtV 0x3C vd a (vsrcBits b).2 (b2n m) ((vsrcBits b).1 + 0x20 + idxOf vfpOps op))
  | .vcompare _ _ op vd a b m => some (fmtV 0x3C vd a (vsrcBits b).2 (b2n m) ((vsrcBits b).1 + vcmpFn op))
  | .vmerge _ _ vd a b => some (fmtV 0x3C vd a (vsrcBits b).2 1 ((vsrcBits b).1 + 0x15))
  | .vfcvt _ _ toInt vd a m => some (fmtV 0x3C vd a 0 (b2n m) (if toInt then 0x2B else 0x2C))
  | .vfdivVfsqrt _ _ sq vd a b m => some (fmtV 0x3F vd a (if sq then 0 else b.val) (b2n m) (0x30 + b2n sq))
  | .vwidenMul _ _ op vd a b m => some (fmtV 0x3F vd a b (b2n m) (idxOf vwidenOps op))
  | .vdot _ _ op vd a b m => some (fmtV 0x3F vd a b (b2n m) (0x08 + idxOf vdotOps op))
  | .vreduceInt _ _ op vd a m => some (fmtV 0x3F vd a 0 (b2n m) (0x10 + idxOf vredIOps op))
  | .vreduceFp _ _ op vd a m => some (fmtV 0x3F vd a 0 (b2n m) (0x15 + idxOf vredFOps op))
  | .vrgather _ _ vd a b m => some (fmtV 0x3F vd a b (b2n m) 0x20)
  | .vslideup _ _ vd a k m => some (fmtV 0x3F vd a k.val (b2n m) 0x21)
  | .vslidedown _ _ vd a k m => some (fmtV 0x3F vd a k.val (b2n m) 0x22)
  | .vcompress _ _ vd a => some (fmtV 0x3F vd a 0 0 0x23)
  | .vid _ _ vd m => some (fmtV 0x3F vd 0 0 (b2n m) 0x24)
  | .vmacm _ _ fp vd a b m => some (fmtV 0x3F vd a.val b.val (b2n m) (if fp then 0x38 else 0x39))
  | .vload _ _ vd a seg m mode => some (fmtVM vd a seg (b2n m) 0 mode)
  | .vstore _ _ vs a seg m mode => some (fmtVM vs a seg (b2n m) 1 mode)
  | .vamo _ _ op vd a b seg m => some (fmtV 0x3F vd a b (b2n m) (0x40 + seg.val * 8 + idxOf vamoOps op))
  | _ => none

/-- The register of a 5-bit field. -/
def rOf (n : Nat) : Reg := Fin.ofNat 32 n
/-- The vector register of a 6-bit field. -/
def vOf (n : Nat) : VReg := Fin.ofNat 64 n
/-- S and SEG: the named or default segment; the outer none where S = 0 and SEG is not zero (R100). -/
def segOf (s4 : Nat) : Option (Option SegId) :=
  if s4 ≥ 8 then some (some (Fin.ofNat 8 s4)) else if s4 = 0 then some none else none

/-- Instruction if the fields that must be zero are zero (R101). -/
def guardI (p : Bool) (i : Instr) : Option Instr := if p then some i else none

/-- Op 0x01 (Table 9). -/
def decAlu (t : TileId) (c : CtxId) (rd rs1 rs2 : Nat) (fn : Nat) : Option Instr :=
  let r := rOf
  if fn < 5 then (aluOps[fn]?).map (fun o => .addSubLogic t c o (r rd) (r rs1) (r rs2))
  else if fn < 8 then (shiftOps[fn - 5]?).map (fun o => .shift t c o (r rd) (r rs1) (r rs2))
  else if fn < 10 then (sltOps[fn - 8]?).map (fun o => .setLessThan t c o (r rd) (r rs1) (r rs2))
  else if fn < 14 then (minMaxOps[fn - 10]?).map (fun o => .minMax t c o (r rd) (r rs1) (r rs2))
  else if fn < 16 then (wOps[fn - 14]?).map (fun o => .addwSubw t c o (r rd) (r rs1) (r rs2))
  else if rs2 = 0 then (countOps[fn - 16]?).map (fun o => .bitCount t c o (r rd) (r rs1))
  else none

/-- Op 0x39 (Table 12, R154, R155, R171). -/
def decSystem (t : TileId) (c : CtxId) (rd rs1 rs2 fn : Nat) : Option Instr :=
  let z := rd == 0 && rs1 == 0 && rs2 == 0
  match fn with
  | 0 => guardI z (.isync t c)
  | 1 => guardI z (.fenceG t c)
  | 2 => guardI z (.fenceB t c)
  | 3 => guardI (rd == 0 && rs2 == 0) (.fenceD t c (rOf rs1))
  | 4 => guardI (rd == 0 && rs2 == 0) (.fenceS t c (rOf rs1))
  | 5 => guardI z (.yieldw t c)
  | 6 => guardI z (.sret t c)
  | 7 => guardI z (.eret t c)
  | 8 => guardI z (.halt t c)
  | 9 => some (.qwait t c (rOf rd) (rOf rs1) (rOf rs2))
  | 10 => guardI (rs2 == 0) (.mxq t c (rOf rd) (rOf rs1))
  | 11 => guardI (rd == 0 && rs2 == 0) (.mxwait t c (rOf rs1))
  | 12 => guardI z (.brk t c)
  | 13 => guardI (rd < 8 && rs1 == 0 && rs2 == 0) (.scall t c (Fin.ofNat 8 rd))
  | 14 => guardI (rd == 0 && rs2 == 0) (.tgon t c (rOf rs1))
  | 15 => guardI z (.tgoff t c)
  | _ => none

/-- Op 0x3C (Table 2 of 05, R148). The conversions have no VX form (DESIGN CHOICE, assumption 125). -/
def decElem (t : TileId) (c : CtxId) (vd vs1 f2 : Nat) (m : Bool) (fn : Nat) : Option Instr :=
  let vx := fn ≥ 64
  let k := fn % 64
  if vx && f2 ≥ 32 then none
  else
    let b : VSrc := if vx then .vx (rOf f2) else .vv (vOf f2)
    if k < 16 then (vintOps[k]?).map (fun o => .vintOp t c o (vOf vd) (vOf vs1) b m)
    else if k < 0x15 then (vcmpIOps[k - 0x10]?).map (fun o => .vcompare t c o (vOf vd) (vOf vs1) b m)
    else if k = 0x15 then guardI m (.vmerge t c (vOf vd) (vOf vs1) b)
    else if k < 0x20 then none
    else if k < 0x28 then (vfpOps[k - 0x20]?).map (fun o => .vfpOp t c o (vOf vd) (vOf vs1) b m)
    else if k < 0x2B then (vcmpFOps[k - 0x28]?).map (fun o => .vcompare t c o (vOf vd) (vOf vs1) b m)
    else if k < 0x2D then guardI (!vx && f2 == 0) (.vfcvt t c (k == 0x2B) (vOf vd) (vOf vs1) m)
    else none

/-- Op 0x3F (Tables 3 and 6 of 05, R162). -/
def decPerm (t : TileId) (c : CtxId) (vd vs1 f2 : Nat) (m : Bool) (fn : Nat) : Option Instr :=
  let d := vOf vd
  let a := vOf vs1
  let b := vOf f2
  if fn < 5 then (vwidenOps[fn]?).map (fun o => .vwidenMul t c o d a b m)
  else if fn < 8 then none
  else if fn < 0x0F then (vdotOps[fn - 8]?).map (fun o => .vdot t c o d a b m)
  else if fn < 0x10 then none
  else if fn < 0x15 then if f2 = 0 then (vredIOps[fn - 0x10]?).map (fun o => .vreduceInt t c o d a m) else none
  else if fn < 0x19 then if f2 = 0 then (vredFOps[fn - 0x15]?).map (fun o => .vreduceFp t c o d a m) else none
  else if fn = 0x20 then some (.vrgather t c d a b m)
  else if fn = 0x21 then guardI (f2 < 32) (.vslideup t c d a (rOf f2) m)
  else if fn = 0x22 then guardI (f2 < 32) (.vslidedown t c d a (rOf f2) m)
  else if fn = 0x23 then guardI (f2 == 0 && !m) (.vcompress t c d a)
  else if fn = 0x24 then guardI (f2 == 0 && vs1 == 0) (.vid t c d m)
  else if fn = 0x30 then some (.vfdivVfsqrt t c false d a b m)
  else if fn = 0x31 then guardI (f2 == 0) (.vfdivVfsqrt t c true d a 0 m)
  else if fn = 0x38 then guardI (vs1 < 32 && f2 < 32) (.vmacm t c true d (rOf vs1) (rOf f2) m)
  else if fn = 0x39 then guardI (vs1 < 32 && f2 < 32) (.vmacm t c false d (rOf vs1) (rOf f2) m)
  else if 0x40 ≤ fn then
    (vamoOps[fn % 8]?).map (fun o => .vamo t c o d a b (Fin.ofNat 8 (fn / 8 % 8)) m)
  else none

/-- The instruction command of a 32-bit word for context c of tile t; none where the word raises ILLEGAL (R100, R101,
R148). -/
def decodeWord (t : TileId) (c : CtxId) (w : Nat) : Option Instr :=
  let op := fld w 31 26
  let rd := fld w 25 21
  let rs1 := fld w 20 16
  let rs2 := fld w 15 11
  let fn := fld w 10 0
  let i16 := fld w 15 0
  let imm16 : BitVec 16 := BitVec.ofNat 16 i16
  if op = 0x01 then decAlu t c rd rs1 rs2 fn
  else if op = 0x02 then
    if fn < 4 then (mulOps[fn]?).map (fun o => .mul t c o (rOf rd) (rOf rs1) (rOf rs2))
    else (divOps[fn - 4]?).map (fun o => .divRem t c o (rOf rd) (rOf rs1) (rOf rs2))
  else if op = 0x03 then some (.addi t c .addi (rOf rd) (rOf rs1) imm16)
  else if op = 0x07 then some (.addi t c .slti (rOf rd) (rOf rs1) imm16)
  else if op = 0x08 then some (.addi t c .sltiu (rOf rd) (rOf rs1) imm16)
  else if 0x04 ≤ op ∧ op ≤ 0x06 then (logicOps[op - 4]?).map (fun o => .logicImm t c o (rOf rd) (rOf rs1) imm16)
  else if op = 0x09 then
    if fld w 15 8 = 0 then
      (shiftOps[fld w 7 6]?).map (fun o => .shiftImm t c o (rOf rd) (rOf rs1) (BitVec.ofNat 6 (fld w 5 0)))
    else none
  else if op = 0x0A then some (.lui t c (rOf rd) (BitVec.ofNat 21 (fld w 20 0)))
  else if op = 0x0B then some (.lapc t c (rOf rd) (BitVec.ofNat 21 (fld w 20 0)))
  else if 0x10 ≤ op ∧ op ≤ 0x16 then
    match segOf (fld w 15 12), loadOps[op - 0x10]? with
    | some sg, some o => some (.load t c o (rOf rd) (rOf rs1) sg (BitVec.ofNat 12 (fld w 11 0)))
    | _, _ => none
  else if 0x18 ≤ op ∧ op ≤ 0x1B then
    match segOf (fld w 15 12), sizes[op - 0x18]? with
    | some sg, some z => some (.store t c z (rOf rd) (rOf rs1) sg (BitVec.ofNat 12 (fld w 11 0)))
    | _, _ => none
  else if op = 0x1C then
    match segOf (fld w 10 7) with
    | none => none
    | some sg =>
      if fld w 6 5 < 2 then none
      else
        let dw := fld w 6 5 == 3
        if fld w 4 0 = 9 then some (.amocas t c dw (rOf rd) (rOf rs1) (rOf rs2) sg)
        else (amoOps[fld w 4 0]?).map (fun o => .amo t c o dw (rOf rd) (rOf rs1) (rOf rs2) sg)
  else if op = 0x1D then
    match segOf (fld w 10 7) with
    | none => none
    | some sg =>
      if fld w 6 0 ≠ 0 then none
      else match rd with
        | 0 => guardI (rs2 == 0) (.dzl t c (rOf rs1) sg)
        | 1 => some (.rclean t c (rOf rs1) (rOf rs2) sg)
        | 2 => some (.rinval t c (rOf rs1) (rOf rs2) sg)
        | 3 => some (.rcinval t c (rOf rs1) (rOf rs2) sg)
        | _ => none
  else if op = 0x1E then
    (sizes[fld w 15 14]?).map (fun z => .macm t c z (bitN w 13) (bitN w 12) (rOf rd) (rOf rs1)
      (BitVec.ofNat 6 (fld w 11 6)) (BitVec.ofNat 6 (fld w 5 0)))
  else if 0x20 ≤ op ∧ op ≤ 0x25 then
    (branchOps[op - 0x20]?).map (fun o => .branch t c o (rOf rd) (rOf rs1) imm16)
  else if op = 0x26 then some (.jump t c (BitVec.ofNat 26 (fld w 25 0)))
  else if op = 0x27 then some (.call t c (BitVec.ofNat 26 (fld w 25 0)))
  else if op = 0x28 then
    match fn with
    | 0 => guardI (rs2 == 0) (.jr t c (rOf rd) (rOf rs1))
    | 1 => guardI (rs2 == 0) (.callr t c (rOf rd) (rOf rs1))
    | 2 => guardI (rd == 0 && rs1 == 0 && rs2 == 0) (.ret t c)
    | _ => none
  else if op = 0x2B then
    let l : Fin 2 := Fin.ofNat 2 (fld w 25 25)
    match fld w 24 23 with
    | 0 => guardI (fld w 17 12 == 0) (.loop t c l (rOf (fld w 22 18)) (BitVec.ofNat 12 (fld w 11 0)))
    | 1 => some (.loopi t c l (BitVec.ofNat 11 (fld w 22 12)) (BitVec.ofNat 12 (fld w 11 0)))
    | 2 => guardI (fld w 22 0 == 0) (.lpclr t c l)
    | _ => none
  else if op = 0x2D then
    match fn with
    | 0 => guardI (rd == 0 && rs2 == 0) (.rspush t c (rOf rs1))
    | 1 => guardI (rs1 == 0 && rs2 == 0) (.rspop t c (rOf rd))
    | 2 => guardI (rd == 0 && rs1 == 0 && rs2 == 0) (.rsclr t c)
    | _ => none
  else if op = 0x30 then
    let n : SegId := Fin.ofNat 8 (fld w 10 8)
    match fld w 7 0 with
    | 0 => guardI (rd == 0) (.segset t c n (rOf rs1) (rOf rs2))
    | 1 => guardI (rd < 8) (.segnarrow t c n (BitVec.ofNat 3 rd) (rOf rs1) (rOf rs2))
    | 2 => guardI (rs1 == 0 && rs2 == 0) (.segrda t c n (rOf rd))
    | 3 => guardI (rs1 == 0 && rs2 == 0) (.segrdl t c n (rOf rd))
    | _ => none
  else if op = 0x38 then
    let csr : BitVec 12 := BitVec.ofNat 12 (fld w 11 0)
    let tgl := fld w 11 0 == 0x0D1 || fld w 11 0 == 0x0D2
    match fld w 15 12 with
    | 0 => guardI (rs1 == 0) (.csrr t c (rOf rd) csr)
    | 1 => if tgl then some (.tgliveWrite t c .csrw (rOf rd) (rOf rs1) (fld w 11 0 == 0x0D2))
      else some (.csrw t c (rOf rd) (rOf rs1) csr)
    | 2 => if tgl then some (.tgliveWrite t c .csrs (rOf rd) (rOf rs1) (fld w 11 0 == 0x0D2))
      else some (.csrs t c (rOf rd) (rOf rs1) csr)
    | 3 => if tgl then some (.tgliveWrite t c .csrc (rOf rd) (rOf rs1) (fld w 11 0 == 0x0D2))
      else some (.csrc t c (rOf rd) (rOf rs1) csr)
    | _ => none
  else if op = 0x39 then decSystem t c rd rs1 rs2 fn
  else if op = 0x3C then decElem t c (fld w 25 20) (fld w 19 14) (fld w 13 8) (bitN w 7) (fld w 6 0)
  else if op = 0x3F then decPerm t c (fld w 25 20) (fld w 19 14) (fld w 13 8) (bitN w 7) (fld w 6 0)
  else if op = 0x3D then
    match segOf (fld w 14 11) with
    | none => none
    | some sg =>
      let idx := fld w 6 0
      let mode : Option VMode :=
        match fld w 8 7 with
        | 0 => if idx = 0 then some .unit else none
        | 1 => if idx < 32 then some (.strided (rOf idx)) else none
        | 2 => if idx < 64 then some (.indexed (vOf idx)) else none
        | _ => none
      match mode with
      | none => none
      | some md =>
        if bitN w 9 then some (.vstore t c (vOf (fld w 25 20)) (rOf (fld w 19 15)) sg (bitN w 10) md)
        else some (.vload t c (vOf (fld w 25 20)) (rOf (fld w 19 15)) sg (bitN w 10) md)
  else if op = 0x3E then
    let vs := fld w 15 10
    let cfgZero := fld w 5 2 == 0
    if fld w 1 0 ≠ 0 then none
    else match fld w 9 6 with
      | 0 => guardI (vs == 0 && (!(bitN w 3) || fld w 5 4 == 1))
          (.vshape t c (rOf rd) (rOf rs1) (Fin.ofNat 4 (fld w 5 4)) (bitN w 3) (bitN w 2))
      | 1 => guardI (rs1 == 0 && cfgZero) (.vmvXS t c (rOf rd) (vOf vs))
      | 2 => guardI (rd == 0 && cfgZero) (.vmvSX t c (vOf vs) (rOf rs1))
      | 3 => guardI (rd == 0 && cfgZero) (.vmvVX t c (vOf vs) (rOf rs1))
      | 4 => guardI (rd == 0 && cfgZero) (.tbr t c (vOf vs) (rOf rs1))
      | 5 => guardI (rd == 0 && cfgZero) (.tbrz t c (vOf vs) (rOf rs1))
      | _ => none
  else none

/-- The instruction word as TL_EINFO holds it (R119, R144, R168). -/
def wordInfo (i : Instr) : Word := BitVec.ofNat 64 ((encodeWord i).getD 0)

end Sys2Proof
end

