-- ==== Sys2Proof/Machine/Gf.lean ====
section
/-!
DEFINITION. Finite-field arithmetic of the memory code RS(20,16) over GF(2^16) (R239, R241) and of the flit code over
GF(2^8) (R264), with decoding by syndromes.
-/

namespace Sys2Proof
namespace Machine

/-- Multiply by x in GF(2^w) with the low part of the field polynomial. -/
def gfX (w poly a : Nat) : Nat :=
  let b := (a * 2) % 2 ^ w
  if a.testBit (w - 1) then b ^^^ poly else b

/-- Product in GF(2^w): k bits of b remain. -/
def gfMulAux (w poly : Nat) : Nat → Nat → Nat → Nat
  | 0, _, _ => 0
  | k + 1, a, b =>
    (if b % 2 = 1 then a else 0) ^^^ gfMulAux w poly k (gfX w poly a) (b / 2)

/-- Product in GF(2^w). -/
def gfMul (w poly a b : Nat) : Nat := gfMulAux w poly w a b

/-- Power in GF(2^w) by repeated multiplication. -/
def gfPow (w poly a : Nat) : Nat → Nat
  | 0 => 1
  | n + 1 => gfMul w poly a (gfPow w poly a n)

/-- Squares: a, a^2, a^4, … and their running product: a^(2^k - 2) for k steps gives the inverse. -/
def gfInvAux (w poly : Nat) : Nat → Nat → Nat → Nat
  | 0, _, acc => acc
  | k + 1, sq, acc =>
    let sq' := gfMul w poly sq sq
    gfInvAux w poly k sq' (gfMul w poly acc sq')

/-- Inverse in GF(2^w), a^(2^w - 2). -/
def gfInv (w poly a : Nat) : Nat := gfInvAux w poly (w - 1) a 1

/-- The low part of x^16 + x^12 + x^3 + x + 1 (R239). -/
def poly16 : Nat := 0x100B

/-- Syndrome j of an error vector, symbols at powers of alpha = 2: the sum of e_i alpha^(i j) (R239: roots alpha^0
to alpha^3). -/
def syndrome (w poly : Nat) (e : List Nat) (j : Nat) : Nat :=
  ((List.range e.length).foldl (fun a i =>
    let v := e.getD i 0
    if v = 0 then a else a ^^^ gfMul w poly v (gfPow w poly 2 (i * j))) 0)

/-- Coefficients of the product of (x - X) over a list of locators, lowest first. -/
def locPoly (w poly : Nat) : List Nat → List Nat
  | [] => [1]
  | X :: r =>
    let p := locPoly w poly r
    (List.range (p.length + 1)).map (fun i =>
      (if i = 0 then 0 else p.getD (i - 1) 0) ^^^ gfMul w poly X (p.getD i 0))

/-- Value of a polynomial, lowest coefficient first. -/
def polyAt (w poly x : Nat) : List Nat → Nat
  | [] => 0
  | c :: r => c ^^^ gfMul w poly x (polyAt w poly x r)

/-- The values at given positions that explain the syndromes, if some do: Lagrange on the locators. -/
def solveAt (w poly : Nat) (syn : List Nat) (pos : List Nat) : Option (List (Nat × Nat)) :=
  let loc := fun i => gfPow w poly 2 i
  let vals := pos.map (fun i =>
    let others := (pos.filter (· != i)).map loc
    let p := locPoly w poly others
    let num := (List.range p.length).foldl (fun a j => a ^^^ gfMul w poly (p.getD j 0) (syn.getD j 0)) 0
    (i, gfMul w poly num (gfInv w poly (polyAt w poly (loc i) p))))
  let ok := (List.range syn.length).all (fun j =>
    (vals.foldl (fun a (iv : Nat × Nat) => a ^^^ gfMul w poly iv.2 (gfPow w poly (loc iv.1) j)) 0) == syn.getD j 0)
  if ok then some vals else none

/-- The outcome of decoding one sector (R241). -/
inductive Decoded where
  | good
  | poisoned
  /-- Corrected: the symbols changed, with the values the decoder removed. -/
  | corrected (fix : List (Nat × Nat))
  | uncorrectable
deriving DecidableEq, Repr

/-- The marker of R239 as an error vector. -/
def markerVec : List Nat := [0xA5C3, 0xA5C3, 0xA5C3, 0xA5C3]

/-- XOR of two symbol vectors of length 20. -/
def xorVec (a b : List Nat) : List Nat := (List.range 20).map (fun i => a.getD i 0 ^^^ b.getD i 0)

/-- The stack die a codeword symbol lies on: symbols 0 and 1 on die 8, 2 and 3 on die 9, data symbol i, at position
i + 4, on die i div 2 (R239). -/
def symDie (pos : Nat) : Nat := if pos < 4 then 8 + pos / 2 else (pos - 4) / 2

/-- Decode a sector whose stored word differs from a codeword by `e` (the marker included for a poisoned one), in the
order of R241, with the symbols of marked dies as erasures. -/
def decodeSector (e : List Nat) (mark : Nat) : Decoded :=
  let syn := fun v => (List.range 4).map (syndrome 16 poly16 v)
  let zero := fun (l : List Nat) => l.all (· == 0)
  if zero (syn e) then .good
  else if zero (syn (xorVec e markerVec)) then .poisoned
  else
    let er := (List.range 20).filter (fun p => mark.testBit (symDie p))
    let rest := (List.range 20).filter (fun p => !er.contains p)
    let s := syn e
    let cands : List (List Nat) :=
      if er.length ≥ 4 then [er]
      else if er.length ≥ 2 then er :: rest.map (fun p => er ++ [p])
      else rest.map (fun p => [p]) ++ rest.flatMap (fun p => (rest.filter (p < ·)).map (fun q => [p, q]))
    match cands.findSome? (fun ps => solveAt 16 poly16 s ps) with
    | some fix => .corrected (fix.filter (fun iv => iv.2 != 0))
    | none => .uncorrectable

end Machine
end Sys2Proof
end

