-- ==== Sys2Proof/Config.lean ====
section
/-!
DEFINITION. The values the spec leaves open, as constants without a body: nothing can be proved of the value any of
them takes. `freeValue n` is the n-th value drawn from the model's own counter (State.draws), used where the spec
calls a value unpredictable (R3) or states no value; the others are functions the spec names by reference to a
standard (FIPS 202, FIPS 205, the elementary functions of R191's units) and whose text it does not give.
-/

namespace Sys2Proof
namespace Config

/-- The n-th unpredictable 64-bit value (R3; assumption 4). -/
opaque freeValue : Nat → Word

/-- The n-th unpredictable byte of a place whose contents became unpredictable at draw g (R3; assumption 5). -/
opaque unwritten : Nat → Nat → Byte

/-- SHAKE256 (FIPS 202) of a byte list, 64 bytes of output (R44, R386; assumption 6). -/
opaque shake256 : List Byte → List Byte

/-- SHA3-384 or other hash a named transport asks for is not used; this is SHAKE256 with 32 bytes of output
(R413, R414; assumption 6). -/
opaque shake256x32 : List Byte → List Byte

/-- SLH-DSA-SHAKE-256s verification (FIPS 205): key, message, signature (R44; assumption 6). -/
opaque slhVerify : List Byte → List Byte → List Byte → Bool

/-- SLH-DSA-SHAKE-256s signing under the key of the given number (R386, R415; assumption 6). -/
opaque slhSign : Nat → List Byte → List Byte

/-- The public key whose private part the module generated at the n-th key generation (R379, R424; assumption 6). -/
opaque publicKey : Nat → List Byte

/-- The vendor SLH-DSA public key in Lodestar ROM (R61 step 5; assumption 7). -/
opaque vendorKey : List Byte

/-- Tininess is detected before rounding; after it otherwise (IEEE 754-2019 leaves the choice, R130; assumption 25). -/
opaque tinyBeforeRounding : Bool

/-- A fused multiply-add of zero, infinity and a quiet NaN signals invalid (IEEE 754-2019 leaves the choice, R130;
assumption 25). -/
opaque fmaZeroInfQuiet : Bool

/-- The order code of the part is LX1024-M, whose meter may be sealed; LX1024-N otherwise (R34, R297, R420). -/
opaque metered : Bool

/-- The module serial of the part (R298, R391, R422, R452). -/
opaque serial : Nat

/-- The slot 0 certificate chain written at the n-th key generation: vendor root and device certificate (R386, R424). -/
opaque certChain : Nat → List Byte

/-- The DMTF type, modulo 128, of a measurement block beside its being a raw bit stream (R386 names none). -/
opaque measType : Nat → Nat

/-- SHA3-512 of an SPDM transcript (FIPS 202, R386; assumption 6). -/
opaque transcriptHash : List Byte → List Byte

/-- SLH-DSA-SHAKE-256f signing under the key of the given number, 49,856 bytes (R415; assumption 6). -/
opaque slhSignF : Nat → List Byte → List Byte

/-- The 64 KiB of trim values in Lodestar ROM (R453). -/
opaque romTrim : List Byte

/-- Energy in nJ of one sample pair of the meter's ADCs under the voltage and current calibration (R405, R421; the spec
states no formula). -/
opaque adcEnergy : List Byte → List Byte → BitVec 24 → BitVec 24 → Nat

/-- The bridge module, modulo 8, of a packet that enters the package at a die without tiles (R256 gives the index by the
source tile alone; assumption 133). -/
opaque sourceModule : Nat → Nat

/-- The router, modulo 64, that serves the control space of a compute die (R253 names none; assumption 133). -/
opaque controlRouter : Nat → Nat

/-- Whether the cosine and the sine of a rotation are rounded up to FP32, or down, by position, ROPE_BASE, pair and HEAD_DIM
(R341 states no rounding of them; assumption 98). -/
opaque rotaryUp : Nat → Nat → Nat → Nat → Bool × Bool

/-- The token of a byte of a prompt that no token but special ones spells (R345 states no result; assumption 97). -/
opaque strayToken : Byte → Nat

/-- TL_OCC of the runtime's launches, but for their contexts: the local store they take is not stated (R339;
assumption 96). -/
opaque runtimeOcc : Word

/-- The stripe of the runtime's copies on a die, as a power of two above 4 KiB, and the unit of a constellation's space on the
die at which its copies begin (R342 states neither; assumption 95). -/
opaque copyStripe : Nat → Nat → Nat
opaque copyStart : Nat → Nat → Nat

/-- The tile-store words in which reads find one wrong bit during the n-th tick, as tile and number of words (R218;
assumption 130). -/
opaque sramCorrected : Nat → List (Nat × Nat)

/-- The tile-store words whose check bits come to hold an uncorrectable error in the n-th tick, as tile and word (R218;
assumption 130). -/
opaque sramStruck : Nat → List (Nat × Nat)

end Config
end Sys2Proof
end

