-- ==== Sys2Proof/Machine/ChartTypes.lean ====
section
/-!
DEFINITION. The Chart in force and its sections, as the machine holds them after a load (02 R47 to R57).
-/

namespace Sys2Proof
namespace Machine

/-- An entry of a QUEUE section (R54). -/
structure QueueEnt where
  queue : Nat
  flags : Nat
  reserve : Nat
  max : Nat
  watchdog : Nat
deriving DecidableEq, Repr

/-- An ENVELOPE section (R56). -/
structure Envelope where
  capW : Nat
  topOp : Nat
  t2Idle : Nat
deriving DecidableEq, Repr

/-- A shard record (R57). -/
structure Shard where
  die : Nat
  replicas : Nat
deriving DecidableEq, Repr

/-- A record of one complete copy of a model (R57). -/
structure ModelCopy where
  number : Nat
  minReplicas : Nat
  fbConst : Nat
  fbCopy : Nat
  shards : List Shard
deriving DecidableEq, Repr

/-- The three sections tagged with one constellation (R54, R56, R57). Masks hold bit g for tile g, bit r for
region r. -/
structure Constel where
  id : Nat
  flags : Nat
  minTiles : Nat
  lsSteps : Nat
  stepTol : Nat
  tiles : Nat
  retired : Nat
  regions : Nat
  copies : List ModelCopy
  queues : List QueueEnt
  env : Envelope
deriving DecidableEq, Repr

/-- A LINKPORT port entry (R52). -/
structure PortEnt where
  neighbour : Nat
  nport : Nat
  minWidth : Nat
  flags : Nat
deriving DecidableEq, Repr

/-- A Chart (R42 to R57). -/
structure Chart where
  serial : Nat
  moduleId : Nat
  constCount : Nat
  lsSteps : Nat
  sweepTicks : Nat
  quiesceTicks : Nat
  enables : Nat
  debugMax : List Nat
  /-- DIES and STRIPE of each region (R49). -/
  interleave : List (Nat × Nat)
  /-- The ROUTE byte at 32 s + t (R51). -/
  route : List Nat
  ports : List PortEnt
  /-- PRIMARY and ALTERNATE of module m; absent is 0xFF, 0xFF (R52). -/
  routes : SMap (Nat × Nat)
  ruleVersion : Nat
  channels : List Nat
  meterBytes : List Byte
  /-- The module-wide QUEUE and ENVELOPE sections (R55, R56). -/
  queues : List QueueEnt
  env : Envelope
  consts : List Constel
deriving DecidableEq, Repr

end Machine
end Sys2Proof
end

