-- ==== Sys2Proof/Machine/DieTypes.lean ====
section
/-!
DEFINITION. The types of a die's state: stack cache, stack controller, always-on record queue (09 R232 to R251,
18 R429 to R444, 15 R376).
-/

namespace Sys2Proof
namespace Machine

/-- Retention classes of a stack-cache line (R232). -/
inductive SClass where | normal | keep | discard
deriving DecidableEq, Repr

/-- A stack-cache line: its module line address (address / 128), class, and per-sector valid and dirty bits. The
value of a byte at its point of coherence is held once, in module memory (assumption 20). -/
structure SLine where
  line : Nat
  cls : SClass
  valid : List Bool
  dirty : List Bool
deriving DecidableEq, Repr

/-- An error record as a die queues it (R429); the posting engine writes SEQ. -/
structure ErrRec where
  cls : Nat
  flags : Nat
  die : Nat
  code : Nat
  unit : Nat
  dieSeq : Nat
  count : Nat
  addr : Nat
  /-- The 32 DETAIL bytes. -/
  detail : List Byte
deriving DecidableEq, Repr

/-- A compute die's stack cache and stack controller (R232, R242 to R251). -/
structure CDieSt where
  /-- Sets of the stack cache, most recently used first. -/
  sc : SMap (List SLine)
  /-- SC_STAT.DROPS. -/
  drops : BitVec 32
  dcTemp0 : Word
  dcTemp1 : Word
  dcTherm : Word
  dcEcc : Word
  dcDiemark : Word
  dcScrub : Word
  /-- Symbols corrected on each stack die within the current patrol pass (R242). -/
  passCorr : List Nat
  /-- Consecutive samples without a valid reading, per stack die (R246). -/
  invalid : List Nat
  /-- Tick from which every die has read below 90 degrees, 0 when one does not (R247). -/
  coolFrom : Nat
  /-- Tick at which the bucket last went to 50 % (R247). -/
  hotFrom : Nat
  /-- Tokens in the throttle bucket (R248). -/
  tokens : Nat
  /-- Tick of the last corrected record of the stack plus one, 0 for none yet, and events and symbols since (R244). -/
  corrMark : Nat
  corrSince : Nat
  corrSyms : Nat
  /-- The tick of the last patrol read (R245). -/
  patrolMark : Nat
deriving DecidableEq, Repr

/-- A die's wake controller and always-on record queue (R434, R435, R444, 15 R376). -/
structure WakeSt where
  errQ : List ErrRec
  /-- WK_ERRQ.NEXT_SEQ and LOST. -/
  nextSeq : Nat
  lost : Nat
  /-- The next record queued carries OVERFLOW (R435). -/
  ovf : Bool
  /-- WK_STATE (15 R376). -/
  wkState : Word
  /-- Tick and sequence number of the last heartbeat of the active Lodestar (R440). -/
  hbMark : Nat
  hbSeq : Nat
deriving DecidableEq, Repr

/-- A compute die at reset (R251). -/
def CDieSt.reset : CDieSt :=
  { sc := [], drops := 0, dcTemp0 := 0, dcTemp1 := 0, dcTherm := 0, dcEcc := 0
    dcDiemark := BitVec.ofNat 64 (64 * 2 ^ 24), dcScrub := BitVec.ofNat 64 2011
    passCorr := List.replicate 10 0, invalid := List.replicate 10 0, coolFrom := 0, hotFrom := 0, tokens := 0
    corrMark := 0, corrSince := 0, corrSyms := 0, patrolMark := 0 }

/-- A wake controller after the loss of auxiliary power (R444). -/
def WakeSt.reset : WakeSt :=
  { errQ := [], nextSeq := 1, lost := 0, ovf := false, wkState := 0, hbMark := 0, hbSeq := 0 }

end Machine
end Sys2Proof
end

