-- ==== Sys2Proof/Machine/HostTypes.lean ====
section
/-!
DEFINITION. The types of the host attachment (12) and of the queues, fences and the Letterbox (13).
-/

namespace Sys2Proof
namespace Machine

/-- A translation (R310): PASID, first page address, page size, translated address, permissions. -/
structure TransEnt where
  pasid : Option Nat
  base : Nat
  size : Nat
  target : Nat
  rd : Bool
  wr : Bool
deriving DecidableEq, Repr

/-- An outstanding Translation Request (R310, R316): number, descriptor, address, overtaken by an invalidation of its
address or by ATS_DISABLE, and the ranges, as (base, size), of the Invalidate Requests for its PASID since it was sent. -/
structure TransReq where
  id : Nat
  q : Nat
  idx : Nat
  addr : Nat
  stale : Bool
  invs : List (Nat × Nat)
deriving DecidableEq, Repr

/-- An Invalidate Request in progress (R314): ITag, PASID or global, range, tick of arrival, descriptors it waits for. -/
structure Inval where
  itag : Nat
  pasid : Option Nat
  base : Nat
  size : Nat
  at_ : Nat
  waits : List (Nat × Nat)
deriving DecidableEq, Repr

/-- Who waits for a read of host memory (R41): a queue, for its ring entries from an index on; a request of a COPY; a
piece of the constants of a LAUNCH; an AMEND. -/
inductive ReadOwner where
  | ring (q start : Nat)
  | copy (q idx k : Nat)
  | consts (q idx k : Nat)
  | image (q idx : Nat)
deriving DecidableEq, Repr

/-- A request of the host that waits for BAR2 writes that arrived before it, or is one (R307, R321): a write or a read of
BAR2 at a module address, with the errors its access meets and whether it is within the window; a read of BAR0; a
doorbell. -/
inductive HostWait where
  | write (a : Nat) (bytes : List Byte) (errs : List SymErr) (inside : Bool)
  | read (a len : Nat) (errs : List SymErr) (inside : Bool)
  | bar0 (off : Nat) (wide : Bool)
  | doorbell (q tail : Nat)
deriving DecidableEq, Repr

/-- A request of the function that D3hot holds (R301), by what makes it: a queue's ring fetch, a translation, a COPY, the
constants of a LAUNCH, Invalidation Completions, the receipts of a ring, a queue's words, the global block, the error ring,
the image of an AMEND. -/
inductive Deferred where
  | ring (q need : Nat)
  | trans (q idx : Nat)
  | copy (q idx : Nat)
  | launch (q : Nat)
  | inval
  | receipt (r : Nat)
  | words (q : Nat)
  | global
  | errors
deriving DecidableEq, Repr

/-- The configuration registers that the function implements, by what they are: the spec gives their values and no
offsets beyond the standard header (R297, R298, R300, R301, R316). -/
structure PciCfg where
  /-- Base addresses of BAR0, BAR2 and BAR4 (R303). -/
  bar0 : Nat
  bar2 : Nat
  bar4 : Nat
  /-- Command register bits: memory space, bus master. -/
  command : Nat
  /-- Device Control, Flit and reporting bits held as written. -/
  devCtl : Nat
  /-- ASPM L1 enabled, L0p permitted (Link Control). -/
  aspmL1 : Bool
  l0p : Bool
  /-- ATS Control Enable and PASID Enable. -/
  ats : Bool
  pasid : Bool
  /-- AER status, mask and severity: correctable, uncorrectable. -/
  aerCor : Nat
  aerUnc : Nat
  aerCorMask : Nat
  aerUncMask : Nat
  aerSev : Nat
  /-- The header of the first uncorrectable error (R298). -/
  aerHeader : List Byte
deriving DecidableEq, Repr

/-- Link states (R300). -/
inductive LState where | down | l0 | l0p | l1
deriving DecidableEq, Repr

/-- The host attachment (12). -/
structure HxSt where
  cfg : PciCfg
  /-- Configuration requests are served (R302). -/
  ready : Bool
  drsSent : Bool
  /-- HX_STATUS HEALTH and ACTIVE_LS (R309). -/
  health : Nat
  activeLs : Nat
  d3hot : Bool
  /-- Link state, width now and width trained, tick of the last traffic (R300). -/
  lstate : LState
  width : Nat
  maxWidth : Nat
  lastTraffic : Nat
  /-- Link rate, 1 to 6 for 2.5 to 64 GT/s, and Flit mode (R300). -/
  rate : Nat
  flit : Bool
  slice : Nat
  droppedWrites : Nat
  aborts : Nat
  mirrorMiss : Nat
  bar0Bad : Nat
  trReqs : BitVec 32
  invOverflow : Nat
  invalLimit : Nat
  cache : List TransEnt
  treqs : List TransReq
  invals : List Inval
  /-- Reads of host memory outstanding: number and owner. -/
  hreads : List (Nat × ReadOwner)
  /-- Mirror reads outstanding: die index, register offset, tick (R304). -/
  mirror : List (Nat × Nat × Nat)
  /-- Requests of the host not yet performed, in arrival order (R307). -/
  waiting : List HostWait
  /-- Requests of the function that D3hot holds, in their order (R301). -/
  deferred : List Deferred
  /-- Numbers requests. -/
  nextId : Nat
  /-- HX stopped by a die-internal fatal fault (R431). -/
  stopped : Bool
deriving DecidableEq, Repr

/-- What a command does next in its slots (R325). -/
inductive DPhase where
  /-- Checked, not started (R330). -/
  | ready
  | started
  /-- Rejected: holds its slots until RESUME, CANCEL or RESET (R323). -/
  | faulted
  /-- Its work has ended with its status; completion is still to be made (R325). -/
  | done
deriving DecidableEq, Repr

/-- One unit of a COPY in progress: its number, and per source piece its bytes with their poison once read. -/
structure CopyUnit where
  u : Nat
  parts : List (Option (List Byte × List Bool))
deriving DecidableEq, Repr

/-- What a request of a COPY does. -/
inductive CopyReq where
  | rd (u part : Nat)
  | wr (u : Nat)
  | put (u : Nat)
deriving DecidableEq, Repr

/-- A COPY in progress (R326). -/
structure CopySt where
  /-- Next unit to start, units being read, requests outstanding by number, next number. -/
  next : Nat
  units : List CopyUnit
  reqs : List (Nat × CopyReq)
  serial : Nat
  /-- The status it ends with once its outstanding requests have completed. -/
  stop : Option Nat
  /-- Bytes moved, poisoned source sectors, counts of RESULT 0 to 7, FALLBACKS (R336). -/
  moved : Nat
  poisoned : List Nat
  results : List Nat
  fallbacks : Nat
deriving DecidableEq, Repr

/-- A fetched descriptor in its command slots (R318, R324). -/
structure Desc where
  q : Nat
  /-- Ring index. -/
  idx : Nat
  /-- Its ring entries. -/
  bytes : List Byte
  slots : Nat
  phase : DPhase
  status : Nat
  detail : Nat
  words : List Byte
  /-- Translation (R311): its ranges need none or all are held; entries of the translation store. -/
  trOk : Bool
  trans : List TransEnt
  /-- Tick at which a WAIT became the oldest unstarted descriptor of its queue (R334). -/
  stamp : Option Nat
  copy : CopySt
  /-- The pieces, one for each page, of constants read by reference, once they have been asked for (R327). -/
  consts : List (Option (List Byte))
  /-- Tiles begun by a LAUNCH, and how it ended on each: tile, status, cause, TL_EPC (R328, R336). -/
  tiles : List Nat
  ends : List (Nat × Nat × Nat × Nat)
  /-- Delivery index of a delivered SERVICE descriptor (R331). -/
  delivered : Option Nat
  /-- RESUME has begun its checks again and its translation goes on (R323). -/
  recheck : Bool
  /-- Its queue was reset before it completed (R329). -/
  guilty : Bool
deriving DecidableEq, Repr

/-- The tasks of a completed PERSIST LAUNCH (R328): queue, index, TAG, tiles, stopped by a reset of its queue. -/
structure Persist where
  q : Nat
  idx : Nat
  tag : Nat
  tiles : List Nat
  ends : List (Nat × Nat × Nat × Nat)
  guilty : Bool
deriving DecidableEq, Repr

/-- A receipt that waits to be posted (R336). -/
structure Rcpt where
  q : Nat
  kind : Nat
  type : Nat
  status : Nat
  detail : Nat
  tag : Nat
  index : Nat
  words : List Byte
  /-- The 64 bytes of a POSTED entry supplied by a task. -/
  raw : Option (List Byte)
  /-- Slots freed when it is posted. -/
  slots : Nat
  /-- The last entry of a post: DONE advances. -/
  last : Bool
  /-- The request of the runtime whose FINAL receipt it is (R344). -/
  req : Option Nat := none
deriving DecidableEq, Repr

/-- A queue (R317 to R323, R331). -/
structure Queue where
  state : Nat
  reason : Nat
  head : Nat
  tail : Nat
  pending : Bool
  /-- Target of the fetch run (while RESETTING, the index of the oldest descriptor held), and the index up to which entries have been requested (R323). -/
  target : Nat
  asked : Nat
  /-- A fetch run is in progress. -/
  run : Bool
  /-- Fences that the reset in progress poisons (R329 step 6). -/
  poison : List Nat
  ring : Word
  qcfg : Word
  /-- Slots held. -/
  held : Nat
  /-- An invalid doorbell arrived during the reset (R322). -/
  badTail : Bool
  /-- The reset in progress is a guilty verdict: 1 watchdog, 2 sweep; 0 a RESET command (R329). -/
  verdict : Nat
  /-- Tile page (R331). -/
  dlv : Word
  prod : Nat
  cons : Nat
  failed : Nat
  posts : Nat
  /-- Number of the last queue event that was a doorbell (R332). -/
  bell : Nat
  done : Nat
  guilty : Nat
  /-- Watchdog: ticks counted, tick counting resumed, counting (R333). -/
  wdAcc : Nat
  wdMark : Nat
  wdRun : Bool
  /-- Its Letterbox words are to be posted (R336). -/
  dirty : Bool
deriving DecidableEq, Repr

/-- An AMEND whose amendment has committed and quiesces (R66): its queue and index, leaving tiles, tick of the commit. -/
structure Amending where
  q : Nat
  idx : Nat
  target : Nat
  leaving : List Nat
  mark : Nat
deriving DecidableEq, Repr

/-- The queue front end and the Letterbox (13). -/
structure QfSt where
  queues : SMap Queue
  descs : List Desc
  persist : List Persist
  receipts : List Rcpt
  fences : SMap Word
  lb : Word
  lbSize : Word
  errCons : Nat
  rring : List Word
  rcons : List Nat
  /-- Entries posted to each receipt ring, and error records posted and lost. -/
  rposts : List Nat
  errPosts : Nat
  errLost : Nat
  /-- The sum of the dies' LOST counts when LOST last returned to 0 (R338). -/
  lostBase : Nat
  heartbeat : Nat
  hbMark : Nat
  /-- LOCK and a change of the global block not yet written (R336). -/
  lock : Nat
  gdirty : Bool
  /-- Numbers queue events (R332). -/
  events : Nat
  /-- Tick of the last sweep (R334). -/
  sweepMark : Nat
  /-- Coordinators that may write the tile pages of another constellation's queues: constellation, tile (R331). -/
  coords : List (Nat × Nat)
  /-- A committed amendment that quiesces (R66). -/
  amending : Option Amending
  /-- Bindings that an amendment has ended, held for the descriptors in flight: entry and constellation (R67). -/
  unbinding : List (QueueEnt × Nat)
  /-- Deliveries in the order in which they were made: queue and delivery index (R344). -/
  deliveries : List (Nat × Nat)
deriving DecidableEq, Repr

/-- Configuration registers at reset; the BARs, command and control bits are zero as PCI Express leaves them. -/
def PciCfg.reset : PciCfg :=
  { bar0 := 0, bar2 := 0, bar4 := 0, command := 0, devCtl := 0, aspmL1 := false, l0p := false, ats := false, pasid := false
    aerCor := 0, aerUnc := 0, aerCorMask := 0, aerUncMask := 0, aerSev := 0
    aerHeader := List.replicate 16 0#8 }

/-- The host attachment before its link is up (R309). -/
def HxSt.reset : HxSt :=
  { cfg := PciCfg.reset, ready := false, drsSent := false, health := 0, activeLs := 0, d3hot := false
    lstate := .down, width := 0, maxWidth := 0, lastTraffic := 0, rate := 0, flit := false, slice := 0
    droppedWrites := 0, aborts := 0, mirrorMiss := 0, bar0Bad := 0, trReqs := 0, invOverflow := 0
    invalLimit := 12500000, cache := [], treqs := [], invals := [], hreads := [], mirror := [], waiting := [], deferred := []
    nextId := 0, stopped := false }

/-- A COPY that has not begun. -/
def CopySt.reset : CopySt :=
  { next := 0, units := [], reqs := [], serial := 0, stop := none, moved := 0, poisoned := []
    results := List.replicate 8 0, fallbacks := 0 }

/-- A queue at reset (R320, R331). -/
def Queue.reset : Queue :=
  { state := 0, reason := 0, head := 0, tail := 0, pending := false, target := 0, asked := 0, run := false, poison := [], ring := 0, qcfg := 0
    held := 0, badTail := false, verdict := 0, dlv := 0, prod := 0, cons := 0, failed := 0, posts := 0, bell := 0
    done := 0, guilty := 0, wdAcc := 0, wdMark := 0, wdRun := false, dirty := false }

/-- The front end at reset (R335, R451). -/
def QfSt.reset : QfSt :=
  { queues := [], descs := [], persist := [], receipts := [], fences := [], lb := 0, lbSize := 0, errCons := 0
    rring := List.replicate 64 0, rcons := List.replicate 64 0, rposts := List.replicate 64 0, errPosts := 0
    errLost := 0, lostBase := 0, heartbeat := 0, hbMark := 0, lock := 0, gdirty := false, events := 0, sweepMark := 0, coords := [], amending := none
    unbinding := [], deliveries := [] }

end Machine
end Sys2Proof
end

