-- ==== Sys2Proof/Machine/LinkTypes.lean ====
section
/-!
DEFINITION. The types of the fabric's arbiters, of the Bluner ports and of the update engines (10 R257 to R279, 11
R280 to R296).
-/

namespace Sys2Proof
namespace Machine

/-- An arbiter (R261): per input its census register, the tick of its last packet, its deficit and its queue of
(beats, census); the inputs served by the last round with the packets each sent; its output's census. -/
structure Arb where
  census : List Nat
  mark : List Nat
  deficit : List Nat
  queue : List (List (Nat × Nat))
  sent : List Nat
  out : Nat
deriving DecidableEq, Repr

/-- The arbiter of a response output (R261): packets waiting per input, the input whose turn is next, and the input
that the last round served. -/
structure RspArb where
  waiting : List Nat
  turn : Nat
  sent : Option Nat
deriving DecidableEq, Repr

/-- States of a port (R279). -/
inductive PState where | disabled | detect | training | active | retrain | down
deriving DecidableEq, Repr

/-- A link transaction (R267): the fields of its header slot, whether a reserved field of the header was nonzero, and
its data slots. -/
structure Txn where
  type : Nat
  dslots : Nat
  hint : Nat
  tag : Nat
  src : Nat
  dst : Nat
  addr : Nat
  len : Nat
  ttl : Nat
  census : Nat
  op : Nat
  status : Nat
  poison : Nat
  operand : List Byte
  resv : Bool
  data : List (List Byte)
deriving DecidableEq, Repr

/-- A data flit kept until it is acknowledged (R265): SEQ, FIRST, credits returned, slots. -/
structure HeldFlit where
  seq : Nat
  first : Nat
  req : Nat
  rsp : Nat
  slots : List (List Byte)
deriving DecidableEq, Repr

/-- Who waits for the response of a link request: a read or atomic of a tile by its number, a write of a tile by its
order number, or request k of the COPY in a command record of a queue. -/
inductive TagOwner where
  | read (t seq : Nat)
  | write (t ord : Nat)
  | dma (q idx k : Nat)
deriving DecidableEq, Repr

/-- A tag in use (R259): its index, its owner, the module it goes to, the tick its request was sent. -/
structure TagEnt where
  index : Nat
  owner : TagOwner
  dst : Nat
  sent : Nat
deriving DecidableEq, Repr

/-- A Bluner port (R262 to R279). -/
structure Port where
  state : PState
  reason : Nat
  width : Nat
  /-- Lanes in use, as a mask. -/
  lanes : Nat
  lanesGood : Nat
  gen : Nat
  partner : Nat
  corr : BitVec 32
  replays : Nat
  retrains : Nat
  discards : Nat
  late : Nat
  timeouts : Nat
  tags : List TagEnt
  /-- Transmit: next SEQ, held flits in order, SEQ to be sent again first, NAK to act on, last NAKed flit and how
  often in succession. -/
  txNext : Nat
  held : List HeldFlit
  resend : Option Nat
  nak : Option Nat
  nakFlit : Nat
  nakRun : Nat
  /-- Slot credits held for requests and responses. -/
  reqCred : Nat
  rspCred : Nat
  /-- Transactions to send, each with the input of the transmit side it came by: 0 to 7 the modules of the die's bridge, 8
  the other port of the die, 9 the die itself. The slots of those being sent are flagged where a transaction begins. -/
  reqQ : List (Nat × Txn)
  rspQ : List (Nat × Txn)
  slotQ : List (Bool × List Byte)
  /-- The arbiter of the transmit side (R261): census registers, ticks of the last packets and deficits of the ten inputs;
  the input whose turn it is and whether the round has paid it; the response input next in turn; the class of the last
  transaction sent is response. -/
  census : List Nat
  cmark : List Nat
  deficit : List Nat
  turn : Nat
  paid : Bool
  rturn : Nat
  lastRsp : Bool
  /-- Flit periods since the last alignment block. -/
  periods : Nat
  /-- ACK field and ACKSEQ to return with the next flit. -/
  ack : Nat
  ackSeq : Nat
  /-- Receive: expected SEQ, discarding until it, slots of an unfinished transaction, finished ones. -/
  rxNext : Nat
  discarding : Bool
  rxSlots : List (List Byte)
  rxQ : List Txn
  /-- Freed slots whose credits are still to be returned. -/
  freeReq : Nat
  freeRsp : Nat
  /-- Corrected bytes of the last 1,250 ticks: tick, lane, count (R274). -/
  corrLog : List (Nat × Nat × Nat)
  /-- Training step, 0 to 6, and the tick at which it began (R272). -/
  step : Nat
  mark : Nat
  /-- Lanes found good by the step 3 in progress. -/
  good : Nat
deriving DecidableEq, Repr

/-- A copy of a table record in one update engine, with its counters (R283, R284, R296). -/
structure UeTab where
  rec_ : List Byte
  valid : Bool
  loading : Bool
  parked : Bool
  reason : Nat
  mismatch : BitVec 32
  fallback : BitVec 32
  nans : BitVec 32
  blocks : BitVec 32
  normP : Word
  normU : Word
deriving DecidableEq, Repr

/-- The answer to request k of a COPY: its status (R267), bytes with their poison, and operand (R326). -/
structure DmaAns where
  q : Nat
  idx : Nat
  k : Nat
  st : Nat
  bytes : List Byte
  pois : List Bool
  operand : List Byte
deriving DecidableEq, Repr

/-- Where an update-put came from: a request of a COPY of this module, or the request of another module. -/
inductive PutFrom where
  | dma (q idx k : Nat)
  | port (p : Nat) (x : Txn)
deriving DecidableEq, Repr

/-- An update-put (R281). -/
structure Put where
  src : PutFrom
  addr : Nat
  table : Nat
  n : Nat
  scales : List Byte
  s : Nat
  /-- Gradient blocks, with their poison. -/
  data : List (List Byte)
  poison : Nat
deriving DecidableEq, Repr

/-- An update engine: puts waiting in order of arrival, and puts finished whose ack is to be sent, with status,
RESULT, FALLBACKS and t (R282, R287). -/
structure Engine where
  tabs : SMap UeTab
  waiting : List Put
  done : List (Put × Nat × Nat × Nat × Nat)
deriving DecidableEq, Repr

/-- The fabric, the ports and the update engines. -/
structure LinkSt where
  arbs : SMap Arb
  rspArbs : SMap RspArb
  ports : SMap Port
  /-- BL_TIMEOUT.TICKS of the 12 link dies (R279). -/
  timeout : List Nat
  /-- Dies whose fabric a fence record fences, by die index (R257, R258). -/
  fabricFenced : List Nat
  /-- Link dies fenced by a fatal fault, whose update engine answers every put FENCED (R431). -/
  linkFenced : List Nat
  /-- Sources that change paths: tile, destination (a die, or 32 + a module ID), last request number of the old path
  (R257, R278). -/
  switching : List (Nat × Nat × Nat)
  /-- MESSAGE transactions and requests taken in and waiting for their performance: port and transaction. -/
  messages : List (Nat × Txn)
  /-- Answers to requests of tile DMA engines that their COPYs have not taken up. -/
  dmaDone : List DmaAns
  /-- Next index of a tag, per port. -/
  tagNext : SMap Nat
  /-- UE_DIR and the twelve engines (R296). -/
  ueDir : Word
  /-- Tables parked on one engine, whose park has not reached the others (R288). -/
  parking : List Nat
  engines : SMap Engine
deriving DecidableEq, Repr

/-- An arbiter with no live input. -/
def Arb.reset : Arb :=
  { census := List.replicate 8 0, mark := List.replicate 8 0, deficit := List.replicate 8 0
    queue := List.replicate 8 [], sent := List.replicate 8 0, out := 1 }

/-- A response arbiter with nothing waiting. -/
def RspArb.reset : RspArb := { waiting := List.replicate 8 0, turn := 0, sent := none }

/-- A port at reset (R279). -/
def Port.reset : Port :=
  { state := .disabled, reason := 0, width := 0, lanes := 0, lanesGood := 0, gen := 0, partner := 0, corr := 0
    replays := 0, retrains := 0, discards := 0, late := 0, timeouts := 0, tags := []
    txNext := 0, held := [], resend := none, nak := none, nakFlit := 0, nakRun := 0, reqCred := 0, rspCred := 0
    reqQ := [], rspQ := [], slotQ := []
    census := List.replicate 10 0, cmark := List.replicate 10 0, deficit := List.replicate 10 0
    turn := 0, paid := false, rturn := 0, lastRsp := false, periods := 0, ack := 0, ackSeq := 0
    rxNext := 0, discarding := false, rxSlots := [], rxQ := [], freeReq := 0, freeRsp := 0, corrLog := []
    step := 0, mark := 0, good := 0 }

/-- A table after module reset: invalid and unparked (R284). -/
def UeTab.reset : UeTab :=
  { rec_ := [], valid := false, loading := false, parked := false, reason := 0, mismatch := 0, fallback := 0
    nans := 0, blocks := 0, normP := 0, normU := 0 }

/-- An update engine at reset. -/
def Engine.reset : Engine := { tabs := [], waiting := [], done := [] }

/-- The fabric at reset (R279, R296). -/
def LinkSt.reset : LinkSt :=
  { arbs := [], rspArbs := [], ports := [], timeout := List.replicate 12 125000, fabricFenced := [], linkFenced := []
    switching := [], messages := [], dmaDone := [], tagNext := []
    ueDir := 0, parking := [], engines := [] }

end Machine
end Sys2Proof
end

