-- ==== Sys2Proof/Machine/SysTypes.lean ====
section
/-!
DEFINITION. The types of the Lodestars' side of the module: start-up, reset and the trim set (19, 20), the Chart slots
(02 R63, R65), power (15), recovery (18), security and debug (16).
-/

namespace Sys2Proof
namespace Machine

/-- Start-up, the inputs, the reset hold and the trim set (19, 20). -/
structure SuSt where
  /-- The auxiliary and the main input are good (R463). -/
  auxGood : Bool
  mainGood : Bool
  /-- Tick at which the always-on domains came up, from which WK_TICK counts (R376). -/
  auxAt : Nat
  /-- The main rails went off after start-up had begun: the return of the main input restarts start-up from step 2 (R457). -/
  again : Bool
  /-- PERST# is asserted, as accepted (R466). -/
  perst : Bool
  /-- LS_BOOT (R456). -/
  stage : Nat
  fail : Nat
  trimSrc : Nat
  lsSlot : Nat
  /-- The main rails are on (step 4, R446). -/
  mainOk : Bool
  /-- The reset hold is in force; it was entered by PERST#; its step 4 has completed (R450). -/
  hold : Bool
  holdPerst : Bool
  holdDone : Bool
  /-- Stacks hold their contents: they have had power since they were last written (R367, R448). -/
  dramKept : Bool
  /-- The areas of the management flash that hold the trim set and SAVE (R452); an area never written is empty. -/
  trim : List Byte
  save : List Byte
  trimPending : Bool
  trimRefusal : Nat
  /-- MOD_ID as sampled, and the I3C dynamic addresses of the Lodestar and meter targets, 0 for none (R469, R470). -/
  modId : Nat
  dyn : List Nat
  /-- Tick from which THERMTRIP# is asserted (R472). -/
  trip : Option Nat
  /-- HX firmware and the runtime image have been verified and loaded (R446, R447). -/
  hxFw : Bool
  rtOk : Bool
deriving DecidableEq, Repr

/-- A Chart slot of the management flash: the base image, empty for none, and its chain of amendments (R65). -/
structure ChSlot where
  base : List Byte
  chain : List (List Byte)
deriving DecidableEq, Repr

/-- The Chart slots and the Lodestar's Chart registers (R63, R65). -/
structure ChSt where
  slots : List ChSlot
  current : Nat
  state : Nat
  lastCode : Nat
  lastOffset : Nat
  lastSection : Nat
  target : Nat
  chainLen : Nat
  rejects : Nat
deriving DecidableEq, Repr

/-- Power (15): levels and estimates of the constellations by number, LS_PWR_STAT's fields, the brake (R368 to R376). -/
structure PwSt where
  level : SMap Nat
  est : SMap Nat
  inputW : Nat
  refusal : Nat
  floor : Bool
  masked : Bool
  brakeStuck : Bool
  brake : Bool
  /-- The accepted level of PWRBRK# is low; tick of the last accepted assertion; tick from which the brake has been in
  force without interruption (R372, R374). -/
  low : Bool
  accepted : Nat
  brakeFrom : Nat
  mstate : Nat
  /-- Tick of the last interval (R370, R373). -/
  mark : Nat
  /-- Ticks from which every constellation has been at level 7 with the input above the cap, and of the last
  CAP_UNREACHABLE record (R370). -/
  overFrom : Option Nat
  capMark : Option Nat
  /-- Compute dies whose over-power force has lifted since the last interval, as a mask (R371). -/
  lifting : Nat
deriving DecidableEq, Repr

/-- Recovery (18): the Lodestars' heartbeats, draining, stored fences, release tests, availability. -/
structure RecSt where
  /-- LSA and LSB held in reset; absent since they failed start-up (R438, R439, R446). -/
  held : List Bool
  absent : List Bool
  failovers : Nat
  /-- Sequence number and tick of the last heartbeat of the active and of the standby Lodestar; none once the active one
  has given the standby up (R438, R439). -/
  hbSeq : Nat
  hbTick : Nat
  peerSeq : Nat
  peerTick : Option Nat
  /-- Records posted since the last heartbeat, by die (R438). -/
  posted : List (Nat × ErrRec)
  /-- Die index whose turn comes next in draining (R434). -/
  turn : Nat
  /-- LOST counts that the active Lodestar has read, by die (R435). -/
  lostRead : SMap Nat
  /-- THERMAL and FATAL fences kept in the management flash, as LS_FENCED.CAUSE (R437). -/
  stored : Word
  /-- LS_FENCE_STAT (R444), as masks of the compute dies. -/
  failed : Nat
  passed : Nat
  busy : Nat
  /-- LS_AVAIL.TICKS (R442). -/
  avail : Word
deriving DecidableEq, Repr

/-- A debug session, open or waiting for the meter (R393, R394): level, mask, transport, hold, audited, duration in
ticks, the tick it opened or its event was sent; signer and challenge of its token. -/
structure Session where
  level : Nat
  mask : Nat
  transport : Nat
  hold : Bool
  audited : Bool
  ticks : Nat
  at_ : Nat
  signer : Nat
  chal : List Byte
deriving DecidableEq, Repr

/-- An SPDM responder (R386): version asked for and answered, algorithms negotiated, the transcript as it stands, chunks
of a large request being received and of a large response being sent. -/
structure SpdmSt where
  version : Bool
  caps : Bool
  algos : Bool
  transcript : List Byte
  rxHandle : Nat
  rxNext : Nat
  rx : List Byte
  txHandle : Nat
  txNext : Nat
  tx : List Byte
deriving DecidableEq, Repr

/-- Security, attestation and debug (16). -/
structure SecSt where
  /-- LS_LIFECYCLE.STATE; WIPED and WIPING (R387, R389). -/
  lifecycle : Nat
  wiped : Bool
  wiping : Bool
  ownerKey : Option (List Byte)
  /-- The key generation that made the identity key of each Lodestar's key store; key generations so far (R379). -/
  idKey : Option Nat
  keyGens : Nat
  /-- The slot 0 certificate chain (R386). -/
  certs : List Byte
  /-- Two firmware slots for each of KIND 1 to 4, as images, and which of them is marked current (R381). -/
  slots : List (List Byte)
  current : List Nat
  /-- The slot of each KIND that runs (R381). -/
  inUse : List Nat
  /-- The slot of each KIND that this start-up uses, chosen when it begins; none where neither slot passes (R381). -/
  boot : List (Option Nat)
  /-- SVN floors by KIND, and the SVN of the image of each KIND that runs (R382). -/
  floors : List Nat
  running : List Nat
  /-- Measurement registers of the active and of the standby Lodestar; extensions not yet sent (R383, R385). -/
  meas : List (List Byte)
  standby : List (List Byte)
  unsent : List (Nat × List Byte)
  /-- Events of Table 4 since start-up (R384). -/
  events : Nat
  /-- The outstanding challenge and the tick of its issue (R392). -/
  chal : Option (List Byte × Nat)
  session : Option Session
  audit : Option Session
  sessions : Nat
  refusal : Nat
  spdm : SpdmSt
deriving DecidableEq, Repr

/-- A module whose inputs have never been good; PERST# is pulled low (R467). -/
def SuSt.reset : SuSt :=
  { auxGood := false, mainGood := false, auxAt := 0, again := false, perst := true, stage := 0, fail := 0, trimSrc := 0, lsSlot := 0, mainOk := false
    hold := false, holdPerst := false, holdDone := false, dramKept := false, trim := [], save := [], trimPending := false
    trimRefusal := 0, modId := 0, dyn := [0, 0], trip := none, hxFw := false, rtOk := false }

/-- An empty Chart slot. -/
def ChSlot.empty : ChSlot := { base := [], chain := [] }

/-- No Chart stored (R63). -/
def ChSt.reset : ChSt :=
  { slots := [ChSlot.empty, ChSlot.empty], current := 0, state := 0, lastCode := 0, lastOffset := 0, lastSection := 0
    target := 0, chainLen := 0, rejects := 0 }

/-- Power at reset (R376). -/
def PwSt.reset : PwSt :=
  { level := [], est := [], inputW := 0, refusal := 0, floor := false, masked := false, brakeStuck := false, brake := false
    low := false, accepted := 0, brakeFrom := 0, mstate := 0, mark := 0, overFrom := none, capMark := none, lifting := 0 }

/-- Recovery at reset (R444). -/
def RecSt.reset : RecSt :=
  { held := [false, false], absent := [false, false], failovers := 0, hbSeq := 0, hbTick := 0, peerSeq := 0, peerTick := none
    posted := [], turn := 0, lostRead := [], stored := 0, failed := 0, passed := 0, busy := 0, avail := 0 }

/-- A responder to which nothing has been sent. -/
def SpdmSt.reset : SpdmSt :=
  { version := false, caps := false, algos := false, transcript := [], rxHandle := 0, rxNext := 0, rx := [], txHandle := 0, txNext := 0, tx := [] }

/-- Measurement registers at zero (R383). -/
def measZero : List (List Byte) := List.replicate 8 (List.replicate 64 0#8)

/-- MANUFACTURE, before anything has been provisioned (R387, R401). -/
def SecSt.reset : SecSt :=
  { lifecycle := 0, wiped := false, wiping := false, ownerKey := none, idKey := none, keyGens := 0, certs := []
    slots := List.replicate 8 [], current := [0, 0, 0, 0], inUse := [0, 0, 0, 0], boot := [none, none, none, none], floors := [0, 0, 0, 0], running := [0, 0, 0, 0]
    meas := measZero, standby := measZero, unsent := [], events := 0, chal := none, session := none, audit := none
    sessions := 0, refusal := 0, spdm := SpdmSt.reset }

end Machine
end Sys2Proof
end

