-- ==== Sys2Proof/Machine/MeterTypes.lean ====
section
/-!
DEFINITION. The types of the Franking Meter (17).
-/

namespace Sys2Proof
namespace Machine

/-- An activity post as it reaches the meter (R408): tile, operating point, SEQ and the six counters of Table 2. -/
structure MPost where
  tile : Nat
  op : Nat
  seq : Nat
  counts : List Nat
deriving DecidableEq, Repr

/-- The Franking Meter (R402 to R425). -/
structure MeterSt where
  /-- Powered and started (R402). -/
  on : Bool
  /-- FM_STAT.SEAL and ORDER (R420). -/
  sealed : Nat
  order : Nat
  fault : Bool
  mainPresent : Bool
  /-- Energy of the open interval with the remainder of the one before, in nJ; tick at which the interval began, none
  while no interval runs (R405, R412, R426). -/
  nj : Nat
  from_ : Option Nat
  /-- Power samples of the last second: tick and nJ (FM_INPUT). -/
  samples : List (Nat × Nat)
  /-- Activity of the open interval per channel, and posts lost in it (R409, R412). -/
  act : List Nat
  lostNow : Nat
  lost : Nat
  /-- Posts on their way, and posts that await processing (R409). -/
  transit : List MPost
  posts : List MPost
  /-- Last SEQ seen of each tile. -/
  lastSeq : SMap Nat
  /-- Tile map, METER section of the last Chart message (R410). -/
  map : List Nat
  meter : List Byte
  /-- Chart messages on their way: serial, tile map, METER section; debug-session events: level, mask, signer (R403). -/
  chartMsgs : List (Nat × List Nat × List Byte)
  debugMsgs : List (Nat × Nat × Nat)
  /-- Acknowledgements on their way to the Lodestar (R419). -/
  acks : Nat
  /-- The ledger held: INDEX of the oldest record, the records, the last CHAIN (R413, R414). -/
  base : Nat
  ledger : List (List Byte)
  chain : List Byte
  /-- Intervals closed, CUM_MJ and the channels' cumulative energies. -/
  intervals : Nat
  cum : Nat
  chan : List Nat
  /-- Event counter and the audit log's entries, oldest first (R417, R418). -/
  events : Nat
  log : List (List Byte)
  /-- Postmarks held by block, without their signature, blocks postmarked, blocks discarded (R415, R416). -/
  marks : SMap (List Byte)
  blocks : Nat
  discarded : Nat
  /-- Parameters 1 to 4 of Table 7 as their bytes, and RULE_VERSION (R421). -/
  volt : List Byte
  curr : List Byte
  weights : List Byte
  vkey : List Byte
  rule : Nat
  /-- Firmware identification and VERSION; images stored for the next restart by KIND 1 and 2; SVN floors (R404, R423). -/
  fwId : List Byte
  fwVersion : Nat
  staged : List (List Byte)
  floors : List Nat
  /-- Key generations that made the identity and the postmark key; the slot 0 chain (R415, R424). -/
  keys : Option (Nat × Nat)
  certs : List Byte
  chal : Option (List Byte × Nat)
  refusal : Nat
  spdm : SpdmSt
  /-- The buffer in HX that BAR4 reads, and FM_SEQ (R425). -/
  window : List Byte
  seq : Nat
deriving DecidableEq, Repr

/-- Weights of rule version 1 (R411 Table 3): w[op][k] as 4 bytes each. -/
def weightsV1 : List Byte :=
  ([20000, 100, 40000, 64, 89600, 307200, 15000, 81, 32000, 56, 89600, 307200,
    12000, 62, 25600, 48, 89600, 307200, 9000, 47, 20000, 40, 89600, 307200] : List Nat).flatMap (toLE 4)

/-- The meter of an order code as it comes from the die line: MANUFACTURE, nothing provisioned, nothing recorded. -/
def MeterSt.reset (order : Nat) : MeterSt :=
  { on := false, sealed := 0, order := order, fault := false, mainPresent := false, nj := 0, from_ := none, samples := []
    act := List.replicate 64 0, lostNow := 0, lost := 0, transit := [], posts := [], lastSeq := []
    map := List.replicate 1024 0, meter := List.replicate 128 0#8, chartMsgs := [], debugMsgs := [], acks := 0, base := 0, ledger := [], chain := List.replicate 64 0#8
    intervals := 0, cum := 0, chan := List.replicate 64 0, events := 0, log := [], marks := [], blocks := 0, discarded := 0
    volt := [0#8, 0#8, 0x80#8, 0x3F#8, 0#8, 0#8, 0#8, 0#8], curr := [0#8, 0#8, 0x80#8, 0x3F#8, 0#8, 0#8, 0#8, 0#8]
    weights := weightsV1, vkey := List.replicate 64 0#8, rule := 1
    fwId := List.replicate 64 0#8, fwVersion := 0, staged := [[], []], floors := [0, 0], keys := none, certs := []
    chal := none, refusal := 0, spdm := SpdmSt.reset, window := [], seq := 0 }

end Machine
end Sys2Proof
end

