-- ==== Sys2Proof/Machine/OutTypes.lean ====
section
/-!
DEFINITION. What the module sends to the outside: link lanes, PCI Express requests, completions and messages,
sideband answers, pins. The state keeps them in the order sent (the model's own log).
-/

namespace Sys2Proof
namespace Machine

/-- Completion status of a host request: successful, Unsupported Request, Request Retry Status, Completer Abort, or
successful with the poisoned indication (R302, R305, R306). -/
inductive CplSt where | ok | ur | rrs | ca | ep
deriving DecidableEq, Repr

/-- Codes of an SPDM ERROR that the responders answer with (R386). -/
inductive SpdmErr where | unsupportedRequest | versionMismatch | invalidRequest
deriving DecidableEq, Repr

/-- What a responder can do (16 Table 5): certificates, CHALLENGE, measurements with signatures, chunks. -/
inductive SpdmCap where | cert | chal | measSig | chunk
deriving DecidableEq, Repr

/-- The algorithms offered (16 Table 5): the one hash, BaseAsymAlgo, and the one asymmetric algorithm of the extended field, with
its registry. -/
inductive SpdmHash where | sha3x512
deriving DecidableEq, Repr
inductive SpdmSig where | slhDsaShake256s
deriving DecidableEq, Repr
inductive SpdmRegistry where | iana
deriving DecidableEq, Repr

/-- An answer of an SPDM responder by its content (R386); the layout of the messages is SPDM's own. -/
inductive SpdmAns where
  | version
  /-- DataTransferSize, MaxSPDMmsgSize, CTExponent, and the capabilities set; the others are clear. -/
  | capabilities (transfer maxMsg ct : Nat) (caps : List SpdmCap)
  | algorithms (hash : SpdmHash) (baseAsym : Nat) (ext : SpdmSig) (registry : SpdmRegistry)
  | digests (d : List Byte)
  | certificate (portion : List Byte) (left : Nat)
  | measurements (blocks : List Byte)
  /-- The response is too large for one message: it is fetched by chunks under a handle. -/
  | large (handle : Nat)
  | chunkAck (handle seq : Nat)
  | chunk (handle seq : Nat) (last : Bool) (bytes : List Byte)
  | error (e : SpdmErr)
deriving DecidableEq, Repr

/-- One thing sent outside. -/
inductive Out where
  /-- One flit period of a port: per lane its number and the levels of the symbols sent on it, -3 to +3 (R262). -/
  | lanes (p : Nat) (l : List (Nat × List Int))
  /-- A port leaves electrical idle and sends the detect pattern on its lanes (R272 step 1). -/
  | detect (p : Nat)
  /-- A port sends its capability block on every lane (R272 step 4). -/
  | capability (p : Nat) (block : List Byte)
  /-- A posted write into host memory, with its PASID, its poison indication and whether its address is translated (R313,
  R326). -/
  | hostWrite (addr : Nat) (bytes : List Byte) (pasid : Option Nat) (ep translated : Bool)
  /-- A posted write into the Letterbox: untranslated, in order, with relaxed ordering clear (R336). -/
  | post (addr : Nat) (bytes : List Byte)
  /-- A read request into host memory: its number, address, length, PASID, translated. -/
  | hostRead (id addr n : Nat) (pasid : Option Nat) (translated : Bool)
  /-- A completion of a host's request. -/
  | cpl (st : CplSt) (data : List Byte)
  /-- A Translation Request: number, address, PASID, No Write (R310). -/
  | transReq (id addr : Nat) (pasid : Option Nat) (noWrite : Bool)
  /-- An Invalidation Completion of an ITag (R314). -/
  | invalDone (itag : Nat)
  /-- The Device Readiness Status message (R302). -/
  | drs
  /-- An answer over a sideband transport of R385 or the I3C bus. -/
  | sideband (transport : Nat) (bytes : List Byte)
  /-- An SPDM answer of the Lodestar's target, or of the meter's. -/
  | spdm (meter : Bool) (ans : SpdmAns)
  /-- PLDM firmware parameters of a KIND: VERSION of the image that runs and of the image marked for the next restart
  (R380, R381). -/
  | fwVersion (kind active pending : Nat)
  /-- A pin driven to a level (R470, R472): its name and level. -/
  | pin (name : String) (level : Bool)
deriving DecidableEq, Repr

end Machine
end Sys2Proof
end

