-- ==== Sys2Proof/Machine/RtTypes.lean ====
section
/-!
DEFINITION. The types of the service runtime (14).
-/

namespace Sys2Proof
namespace Machine

/-- What one shard of a copy of a model takes on its die (R342): the constellation that owns it, the die, its regions in
ascending order, the ranges (first, length) of the space that these regions form, the bytes of the copy, after which the pages
come, and the marks of the regions' contents (R359). -/
structure ShardPart where
  const : Nat
  die : Nat
  regions : List Nat
  extents : List (Nat × Nat)
  copyLen : Nat
  gens : List (Nat × Nat)
deriving DecidableEq, Repr

/-- A registered model (R342): its constellation, MODEL number and instance, MAX_SEQ, KV_PAGES, its image as copied, the
parts of its copy and of its standby copy by shard, and the constellation and instance of the standby copy. A model that has
been unregistered while requests finish on its standby copy has a number from 1,024 on, which no request names (R359). -/
structure Model where
  const : Nat
  num : Nat
  inst : Nat
  maxSeq : Nat
  kvPages : Nat
  image : List Byte
  parts : List ShardPart
  sbParts : List ShardPart
  standby : Option (Nat × Nat)
deriving DecidableEq, Repr

/-- Where a request stands: waiting for admission; in half 0 or 1 of a copy of its model; ended with a REASON, its FINAL
receipt still to be made, with pages held or not; its FINAL receipt at the posting engine (R346, R353). -/
inductive ReqPhase where
  | waiting
  | running (half : Nat)
  | ended (reason : Nat) (pages : Bool)
  | posting (reason : Nat) (pages : Bool)
deriving DecidableEq, Repr

/-- A request of a request table (R344), in the order of acceptance: its constellation, the GENERATE's fields, the
prompt's tokens, what it has produced. -/
structure Req where
  /-- Numbers the requests in the order of acceptance (the model's own). -/
  id : Nat
  const : Nat
  model : Nat
  tag : Nat
  rqueue : Nat
  idsOut : Bool
  seed : Nat
  temp : Nat
  topP : Nat
  topK : Nat
  maxTokens : Nat
  prompt : List Nat
  phase : ReqPhase
  /-- It is served by the standby copy (R359). -/
  moved : Bool
  /-- Prompt tokens processed, output tokens. -/
  done : Nat
  toks : List Nat
  /-- Bytes of an incomplete UTF-8 sequence (R352), TEXT receipts not posted, by their bytes (R354), receipts posted. -/
  part : List Byte
  buf : List (List Byte)
  chunk : Nat
  /-- A CANCEL has found it (R355). -/
  cancel : Bool
  /-- Ticks of acceptance, first token and end (R353). -/
  at_ : Nat
  first : Option Nat
  last : Nat
  /-- The instance that served the last token. -/
  served : Option Nat
  /-- Keys and values of each position, by layer, as stored (R341, R347). -/
  kv : List (List (List Nat × List Nat))
  /-- Its page table on each shard: entry i is the pool index of the page of positions 16i to 16i + 15 (R347). -/
  pages : List (List (BitVec 32))
  /-- Its share of the energy of its half-steps, in femtojoules (R358). -/
  energy : Nat
deriving DecidableEq, Repr

/-- The data of the service runtime: the models, the request tables, the number of the next request, and where the round of
each instance stands, by 256 × constellation + instance: one more than the key of the last half-step, 0 at its beginning
(R348). -/
structure RtSt where
  models : List Model
  reqs : List Req
  next : Nat
  rounds : SMap Nat
deriving DecidableEq, Repr

/-- No model registered. -/
def RtSt.reset : RtSt := { models := [], reqs := [], next := 0, rounds := [] }

end Machine
end Sys2Proof
end

