-- ==== Sys2Proof/Machine/Store.lean ====
section
/-!
DEFINITION. Byte stores: module memory, tile stores and lane register files as lists of (address, byte) pairs in one
canonical form, with the places whose contents the spec calls unpredictable kept as plain marks (R3, R7, R122, R217).
-/

namespace Sys2Proof
namespace Machine

/-- A byte store. `cells` lists the written bytes, addresses strictly rising. `free` marks single bytes and `gens`
marks whole blocks of 2^blk bytes whose contents became unpredictable, each with the number of the draw (plus one)
that fixed them. -/
structure Store where
  /-- log2 of the block size of `gens`. -/
  blk : Nat
  /-- Written bytes, addresses strictly rising. -/
  cells : List Host.Cell
  /-- Bytes that became unpredictable: address to draw. -/
  free : SMap Nat
  /-- Blocks that became unpredictable: block number to draw; absent is 0, never. -/
  gens : SMap Nat
deriving DecidableEq, Repr

/-- A store in which nothing has been written. -/
def stEmpty (blk : Nat) : Store := { blk := blk, cells := [], free := [], gens := [] }

/-- The byte a cell list holds at an address. -/
def cellFind : List Host.Cell → Nat → Option Byte
  | [], _ => none
  | (a, b) :: r, k => if a = k then some b else if k < a then none else cellFind r k

/-- A cell list with one byte set, addresses kept strictly rising. -/
def cellSet : List Host.Cell → Nat → Byte → List Host.Cell
  | [], k, v => [(k, v)]
  | (a, b) :: r, k, v =>
    if k < a then (k, v) :: (a, b) :: r
    else if k = a then (k, v) :: r
    else (a, b) :: cellSet r k v

/-- A cell list without one address. -/
def cellErase : List Host.Cell → Nat → List Host.Cell
  | [], _ => []
  | (a, b) :: r, k => if a = k then r else if k < a then (a, b) :: r else (a, b) :: cellErase r k

/-- The generation mark of an address's block. -/
def stGen (m : Store) (a : Nat) : Nat := mget m.gens 0 (a >>> m.blk)

/-- WHAT AN UNLISTED ADDRESS READS AS: a free value where its byte or its block became unpredictable, and zero where
nothing has been written since the machine's reset state (assumption 8, DESIGN CHOICE). -/
def stUnlisted (m : Store) (a : Nat) : Byte :=
  match mfind m.free a with
  | some g => Config.unwritten g a
  | none => if stGen m a = 0 then 0#8 else Config.unwritten (stGen m a) a

/-- Read one byte. -/
def stRead (m : Store) (a : Nat) : Byte :=
  match cellFind m.cells a with
  | some b => b
  | none => stUnlisted m a

/-- Write one byte, keeping the canonical form: a zero written where an unlisted address reads zero removes the
entry. -/
def stWrite (m : Store) (a : Nat) (b : Byte) : Store :=
  { m with
    free := merase m.free a
    cells := if b = 0#8 ∧ stGen m a = 0 then cellErase m.cells a else cellSet m.cells a b }

/-- Read n bytes in ascending address order. -/
def stReadN (m : Store) (a n : Nat) : List Byte := (List.range n).map (fun i => stRead m (a + i))

/-- Write a byte list in ascending address order. -/
def stWriteN (m : Store) (a : Nat) : List Byte → Store
  | [] => m
  | b :: r => stWriteN (stWrite m a b) (a + 1) r

/-- Write the bytes a mask selects. -/
def stWriteOpt (m : Store) (a : Nat) : List (Option Byte) → Store
  | [] => m
  | some b :: r => stWriteOpt (stWrite m a b) (a + 1) r
  | none :: r => stWriteOpt m (a + 1) r

/-- Read n bytes as a little-endian number (R12). -/
def stReadLE (m : Store) (a n : Nat) : Nat := ofLE (stReadN m a n)

/-- Write a number as n little-endian bytes (R12). -/
def stWriteLE (m : Store) (a n v : Nat) : Store := stWriteN m a (toLE n v)

/-- One byte becomes unpredictable at draw g. -/
def stFree (m : Store) (g a : Nat) : Store :=
  { m with cells := cellErase m.cells a, free := mset m.free a (g + 1) }

/-- n bytes become unpredictable at draw g. -/
def stFreeN (m : Store) (g a : Nat) : Nat → Store
  | 0 => m
  | n + 1 => stFree (stFreeN m g a n) g (a + n)

/-- The blocks of a list become unpredictable at draw g. -/
def stScramble (m : Store) (g : Nat) (bs : List Nat) : Store :=
  { m with
    cells := m.cells.filter (fun p => !bs.contains (p.1 >>> m.blk))
    free := m.free.filter (fun p => !bs.contains (p.1 >>> m.blk))
    gens := bs.foldl (fun gs b => mset gs b (g + 1)) m.gens }

/-- Addresses of a cell list strictly rising. -/
def cellsRising : List Host.Cell → Bool
  | [] => true
  | [_] => true
  | p :: q :: r => decide (p.1 < q.1) && cellsRising (q :: r)

/-- The canonical form: addresses strictly rising, and no zero byte listed where an unlisted address reads zero. -/
def stWf (m : Store) : Bool :=
  cellsRising m.cells && m.cells.all (fun p => !(p.2 == 0#8 && stGen m p.1 == 0))

end Machine
end Sys2Proof
end

