-- ==== Sys2Proof/Machine/TileTypes.lean ====
section
/-!
DEFINITION. The types of a tile's state: contexts, pending accesses, merge buffer, caches, lane-engine queue and
matrix queue (03 Table 1, 04 Table 3, 05, 06 Table 4, 08, 09).
-/

namespace Sys2Proof
namespace Machine

/-- A response fault (R109): cause code 0x10 POISON, 0x11 FENCED or 0x12 REMOTE, and where it came from. -/
structure RespFault where
  /-- Program-order number of the access. -/
  seq : Nat
  code : Nat
  /-- PC of the failing access (TL_ESRC). -/
  pc : Nat
  /-- Module or fabric address (TL_EINFO). -/
  addr : Nat
  seg : Nat
  /-- TL_ECAUSE.ACCESS: 1 load, 2 store, 3 read-modify-write; 0 fetch. -/
  access : Nat
  /-- Upper half of a split access. -/
  half : Bool
  /-- Failing element and its group of a vector access (R139). -/
  elem : Option (Nat × Nat)
deriving DecidableEq, Repr

/-- One contiguous part of an access on its way: a half of a scalar access or an element of a vector access. -/
structure Piece where
  /-- Module address, or fabric address in bits [59:0]. -/
  addr : Nat
  n : Nat
  /-- The bytes received so far. -/
  bytes : List (Option Byte)
  /-- The response's fault code, 0 for none. -/
  code : Nat
  /-- Element number of a vector access, 0 otherwise. -/
  elem : Nat
deriving DecidableEq, Repr

/-- What a pending register write comes from. -/
inductive LoadKind where
  /-- A scalar load of a size, sign-extended or not (R102). -/
  | load (n : Nat) (signed : Bool)
  /-- An atomic of width n with its operand (R102). -/
  | amo (op : AmoOp) (n : Nat) (src : Nat)
  /-- A compare-and-swap of width n: compare value, new value (R102). -/
  | cas (n : Nat) (cmp src : Nat)
  /-- A scheduled write of pend_push (R114). -/
  | sched
deriving DecidableEq, Repr

/-- A pending load or atomic, or a scheduled write (R73, R81, R114). -/
structure LoadEnt where
  seq : Nat
  rd : Nat
  /-- Shadow instructions not yet completed, 2 to 0 (R81). -/
  shadow : Nat
  kind : LoadKind
  pc : Nat
  seg : Nat
  pieces : List Piece
  /-- Merge-buffer entries, by number, whose drain acknowledgement the access waits for (R226). -/
  waits : List Nat
  /-- The result once the response has arrived. -/
  data : Option Word
  /-- The fault once a faulting response has arrived. -/
  fault : Option RespFault
deriving DecidableEq, Repr

/-- A mode write whose shadow is in force (R94): 0 TL_CTX_MODE.RSTRAP, 1 TL_SEGA(0), 2 TL_SEGL(0). -/
structure ModeWrite where
  remain : Nat
  which : Nat
  val : Word
deriving DecidableEq, Repr

/-- An entry that has begun and waits at step 2 of R110. -/
structure PendEntry where
  /-- Cause code, or n for `scall`. -/
  code : Nat
  /-- TL_ECAUSE.KIND. -/
  kind : Nat
  info : Word
  seg : Nat
  access : Nat
  half : Bool
  epc : Nat
  esrc : Nat
  /-- The target of `scall`; none for a vector of R106. -/
  target : Option Nat
  /-- LN_VSTART.GROUP that the entry copies (R143). -/
  vstart : Nat
  /-- The path that parks (R164). -/
  path : BitVec 128
deriving DecidableEq, Repr

/-- The work that a fence which has issued outside deterministic mode still waits for: its kind (0 `fence.g` to 3
`fence.s`) and the ranges, address and length, that it invalidates when the work is done (R171). -/
structure FenceWork where
  kind : Nat
  ranges : List (Nat × Nat)
deriving DecidableEq, Repr

/-- What a context is doing. -/
inductive RunState where
  /-- No launch, or its launch has ended on it: issues nothing. -/
  | idle
  | running
  /-- Sleeps in `qwait`: destination, queue, tick of the time limit, PC of the instruction (R332). -/
  | inQwait (rd queue : Nat) (limit : Option Nat)
  /-- Sleeps in `mxwait` until DONE reaches the value (R102). -/
  | inMxwait (value : Nat)
  /-- Executed `halt`: issues nothing more (R328). -/
  | halted
  /-- Runs a task of the service runtime, whose work has commands of its own: issues no other instruction (R339). -/
  | runtime
deriving DecidableEq, Repr

/-- A hardware context (03 Table 1, 04 Table 3, 05 Table 4, 06 Table 4). Registers with a bit map are held whole. -/
structure Ctx where
  /-- x0 to x31 (R69). -/
  x : Vector Word 32
  /-- PC, a byte offset into seg0; in group mode the running path's (R69, R151). -/
  pc : Nat
  /-- TL_CTX_MODE.SUP (R94). -/
  sup : Bool
  /-- TL_CTX_MODE.RSTRAP (R94). -/
  rstrap : Bool
  /-- TL_SEGA(n) (R74). -/
  sega : Vector Word 8
  /-- TL_SEGL(n) (R74). -/
  segl : Vector Word 8
  stklow : Word
  /-- Fast-entry registers e0 to e7 (R111). -/
  e : Vector Word 8
  /-- Return stack (R84, R85): entries, TOP and COUNT. -/
  rs : Vector (BitVec 48) 16
  rsTop : Nat
  rsCount : Nat
  /-- Loop unit (R86): START, END, COUNT of loops 0 and 1. -/
  lpstart : Vector Word 2
  lpend : Vector Word 2
  lpcount : Vector Word 2
  /-- The 128-bit accumulator (R90). -/
  acc : BitVec 128
  /-- TL_MXTOK DONE and ISSUED (R97). -/
  mxDone : BitVec 32
  mxIssued : BitVec 32
  /-- Entry registers (R119). -/
  entry : Word
  vbase : Word
  epc : Word
  estatus : Word
  ecause : Word
  einfo : Word
  esrc : Word
  elds : Word
  eldpre : Vector Word 2
  dpc : Word
  dstatus : Word
  dcause : Word
  dinfo : Word
  dsrc : Word
  dlds : Word
  dldpre : Vector Word 2
  ien : Word
  ipend : Word
  qarm : Word
  /-- The tick at which TL_CTXTIMER reaches zero; 0 while it reads zero (R119). -/
  timerAt : Nat
  /-- Lane-engine CSRs (R145). -/
  vcfg : Word
  vstart : Word
  vcsr : Word
  vfault : Word
  evstart : Word
  dvstart : Word
  /-- Thread-group state (R151, R167). -/
  tgctl : Word
  tgspin : Word
  tglive : BitVec 128
  tgpath : BitVec 128
  tpc : SMap Nat
  yielded : BitVec 128
  /-- MX_REJECT_INFO (R200). -/
  mxreject : Word
  /-- TL_SEGHINT (R236). -/
  seghint : Word
  /-- TL_RANGE_TOK DONE and ISSUED (R236). -/
  rgDone : BitVec 32
  rgIssued : BitVec 32
  /-- Pending loads, atomics and scheduled writes, in program order (R73, R81). -/
  loads : List LoadEnt
  /-- Mode writes in their shadow, in program order (R94). -/
  modeWrites : List ModeWrite
  /-- Response faults that have arrived and whose shadow has ended, in arrival order (R109). -/
  rfaults : List RespFault
  /-- An entry waiting at step 2 of R110. -/
  pend : Option PendEntry
  run : RunState
  /-- The lane-engine queue number of the last instruction issued, if that was a resumable one (R142). -/
  lastLane : Option Nat
  /-- Halted by an INVASIVE debug session (R107); 2 while single-stepping one instruction. -/
  dbg : Nat
  /-- A fence at the PC has committed the buffer and waits for its work: deterministic mode and `halt` (R171, R328). -/
  fenceOn : Bool
  /-- A fence that has completed its issue and whose work holds back later memory accesses (R171). -/
  fence : Option FenceWork
  /-- The sector (or uncached address) and cause code of the last fetch response that carried poison or a fault (R39,
  R109, R243). -/
  fetchBad : Option (Nat × Nat)
  /-- Queue event seen when the context's last `qwait` on a queue returned, by queue (R332). -/
  qseen : SMap Nat
deriving DecidableEq, Repr

/-- A store that a merge-buffer entry or a write carries: its context, PC, segment and program-order number, the
address of its access, and whether that is the upper half of a split access (R79, R109, R119). -/
structure StoreBy where
  ctx : Nat
  pc : Nat
  seg : Nat
  seq : Nat
  addr : Nat
  half : Bool
deriving DecidableEq, Repr

/-- A merge-buffer entry (R224): 32 bytes, or the 128 zero bytes of a `dzl`. -/
structure MBEnt where
  seq : Nat
  addr : Nat
  bytes : List (Option Byte)
  hint : Nat
  /-- Commit order, 0 while the entry is open (R225). -/
  cseq : Nat
  draining : Bool
  dzl : Bool
  /-- The stores that entered it. -/
  who : List StoreBy
deriving DecidableEq, Repr

/-- Who a read request belongs to. -/
inductive ReadFor where
  | load (c : Nat) (seq : Nat)
  | lane (seq : Nat)
  | prefetch (l1 : Bool)
  | fetch (c : Nat)
deriving DecidableEq, Repr

/-- An outstanding read or atomic of the tile, one sector (or one atomic) each (R221, R30). -/
structure ReadReq where
  seq : Nat
  owner : ReadFor
  /-- Sector address; for an atomic or an uncached access its own address. -/
  addr : Nat
  n : Nat
  hint : Nat
  /-- The segment grants W (R236). -/
  w : Bool
  /-- An atomic: performed whole at its point of coherence. -/
  atomic : Option LoadKind
  /-- Installs in L1D, in L1I, in the tile cache. -/
  l1d : Bool
  l1i : Bool
  tc : Bool
  /-- The answer once performed: bytes, poison, status code (0, or a cause code of Table 1 of 04). -/
  answer : Option (List Byte × Bool × Nat)
  /-- Crossed by an invalidation: delivered and installed nowhere (R231). -/
  stale : Bool
  /-- The element of a `vamocas` it carries (R162). -/
  elem : Option Nat
deriving DecidableEq, Repr

/-- A write on its way to its point of coherence (R225). -/
structure WriteReq where
  /-- The number of the merge-buffer entry or vector store it comes from. -/
  seq : Nat
  /-- Its place in the order in which the tile sends requests (R227). -/
  ord : Nat
  addr : Nat
  bytes : List (Option Byte)
  hint : Nat
  who : List StoreBy
  /-- A vector store's queue number and element, for its acknowledgement (R139). -/
  lane : Option (Nat × Nat)
  /-- The transactions of R30 that it counts as: 1, or the elements of a strided or indexed vector store; 0 for a part of
  a unit-stride group, which counts once for all its parts (R139). -/
  txns : Nat
  /-- None until performed; then 0 or a cause code. -/
  status : Option Nat
deriving DecidableEq, Repr

/-- A cache line of a tile cache or L1: tag is the line address; four sectors (R220). -/
structure CLine where
  line : Nat
  /-- Per sector: the bytes if valid. -/
  data : List (Option (List Byte))
  /-- Per sector: poison bit. -/
  poison : List Bool
deriving DecidableEq, Repr

/-- A cache: lines of each set, most recently used first. -/
abbrev Cache := SMap (List CLine)

/-- A range operation (R229): context, kind 1 clean, 2 invalidate, 3 both; module address, length; writes to wait
for; started. -/
structure RangeOp where
  ctx : Nat
  kind : Nat
  seg3 : Bool
  addr : Nat
  len : Nat
  waits : List Nat
  started : Bool
deriving DecidableEq, Repr

/-- A lane-engine instruction that has issued and not finished (R127), with what it captured at issue. -/
structure LaneEnt where
  seq : Nat
  ctx : Nat
  ins : Instr
  pc : Nat
  /-- LN_VCFG and LN_VCSR.RND at issue. -/
  sew : Nat
  alt : Bool
  mz : Bool
  vl : Nat
  rnd : Nat
  /-- Issued in group mode, with the running path (R159). -/
  tg : Bool
  path : BitVec 128
  /-- Scalar operands read at issue (R129). -/
  s1 : Word
  s2 : Word
  /-- First group, next group, and number of groups (R126). -/
  first : Nat
  next : Nat
  groups : Nat
  /-- Element accesses of non-seg3 loads and atomics waiting for their bytes (R139). -/
  pieces : List Piece
  /-- TL_LPCOUNT(0), TL_LPCOUNT(1) before issue, restored where the instruction is returned to (R116). -/
  lp0 : Word
  lp1 : Word
  /-- Thread PCs, yielded bits and spin count before issue, kept where an entry returns to the instruction (R164). -/
  tpc0 : SMap Nat
  yielded0 : BitVec 128
  spin0 : Word
  /-- Stopped part-way by an interrupt or a halt (R142). -/
  stopped : Bool
  /-- Lowest response fault met (R139). -/
  fault : Option RespFault
deriving DecidableEq, Repr

/-- A matrix descriptor in the array queue (R199, R209). -/
structure MxEnt where
  ctx : Nat
  seq : BitVec 32
  desc : List Byte
  /-- Local-store offset of the submitting context's seg3 (R150). -/
  base : Nat
  /-- Cycle of issue. -/
  issued : Option Nat
  /-- Cycle at which pass 0 starts (R196, R197). -/
  s0 : Nat
  /-- Passes started, and output rows that have left, over all passes. -/
  pass : Nat
  row : Nat
  /-- The column LFSRs as the descriptor uses them (R188, R210). -/
  lfsr : List Nat
  saturated : Nat
  flushed : Nat
  nans : Nat
  /-- A byte it read held an uncorrectable error (R209). -/
  poison : Bool
  /-- A context stored into one of its ranges after it issued (R202). -/
  spoil : Bool
  /-- Tile-store bytes that the array reads as they were before stores of other contexts that it does not see, with the
  byte that it reads (R203). -/
  hidden : List (Nat × Byte)
deriving DecidableEq, Repr

/-- A weight buffer of the array: the weight tile of one pass of a descriptor at offset 0, its block scales behind
(R195). -/
structure MxTile where
  ctx : Nat
  seq : BitVec 32
  pass : Nat
  w : Store
deriving DecidableEq, Repr

/-- A byte of local store that a context has written and not fenced: the writer, the tile-store byte, what it held before,
and the contexts, by bits, for whose descriptors the write is not seen (R203). -/
structure Unfenced where
  by_ : Nat
  at_ : Nat
  old : Byte
  mask : Nat
deriving DecidableEq, Repr

/-- Tile power states (R364). -/
inductive TState where | t0 | t1 | t2 | t3
deriving DecidableEq, Repr

/-- A tile (R20). -/
structure Tile where
  ctx : Vector Ctx 8
  /-- Tile-store bytes (R216). -/
  store : Store
  /-- Poisoned words, by word number (R218). -/
  poison : List Nat
  /-- Words whose check bits hold an uncorrectable error that no read has found yet (R218). -/
  latent : List Nat
  /-- Lane register file: byte b of register v of context c at (64 c + v) * 1024 + b (R122). -/
  vr : Store
  /-- Local-store bytes of the launch in force (R37, R216). -/
  lsBytes : Nat
  /-- The launch resident on the tile: queue and descriptor number (R327). -/
  launch : Option (Nat × Nat)
  /-- How the resident launch has ended on the tile: none while it runs, then its status code (R328). -/
  launchEnd : Option Nat
  /-- TL_OCC (R167). -/
  occ : Word
  /-- LN_VREGS (R143). -/
  vregs : Nat
  det : Bool
  chartLeave : Bool
  /-- Held in tile reset (R118). -/
  held : Bool
  /-- Retired by the Chart (R57). -/
  retired : Bool
  tstate : TState
  /-- Operating-point level in force and duty of 16 (R376). -/
  level : Nat
  duty : Nat
  /-- TL_CYCLE: count at the mark, and the tick of the mark (R97). -/
  cycBase : Nat
  cycMark : Nat
  /-- Tick of the last activity, for the idle limits of R364. -/
  idleMark : Nat
  /-- Numbers accesses in issue order. -/
  seq : Nat
  mb : List MBEnt
  reads : List ReadReq
  writes : List WriteReq
  l1d : Cache
  l1i : Cache
  tc : Cache
  rangeQ : List RangeOp
  lane : List LaneEnt
  mx : List MxEnt
  /-- The shadow weight buffer; and the active one, last, behind those that it held for passes whose rows have not all
  left (R195). -/
  mxShadow : Option MxTile
  mxActive : List MxTile
  /-- Local-store bytes written and not fenced, oldest first (R203). -/
  unfenced : List Unfenced
  /-- Event counts since the last activity post and the post sequence number (R408). -/
  act : SMap Nat
  actSeq : Nat
  /-- DMA transfers queued or in flight: local-store offset, length, writes (R201, R202). -/
  dma : List (Nat × Nat × Bool)
  /-- Requests of the tile's DMA engine that are outstanding (R30). -/
  dmaReqs : Nat
  /-- The tick after that in which each requester, a context or 8 for the DMA engine, last sent a request (R260). -/
  lastSent : SMap Nat
  /-- Cause code and TL_EPC of the fault that reset the tile, for the launch's receipt (R336). -/
  endCause : Nat
  endEpc : Nat
  /-- Number of the last queue event when the launch started on the tile (R332). -/
  launchEvent : Nat
deriving DecidableEq, Repr

/-- A context after tile reset (R69, R74, R85, R86, R94, R119, R124, R141, R167, R200, R236; registers the spec
marks U are zero, assumption 9). -/
def Ctx.reset : Ctx :=
  { x := Vector.replicate 32 0, pc := 0, sup := false, rstrap := false
    sega := Vector.replicate 8 0, segl := Vector.replicate 8 0, stklow := 0, e := Vector.replicate 8 0
    rs := Vector.replicate 16 0, rsTop := 0, rsCount := 0
    lpstart := Vector.replicate 2 0, lpend := Vector.replicate 2 0, lpcount := Vector.replicate 2 0
    acc := 0, mxDone := 0, mxIssued := 0
    entry := 0, vbase := 0, epc := 0, estatus := 0, ecause := 0, einfo := 0, esrc := 0, elds := 0
    eldpre := Vector.replicate 2 0
    dpc := 0, dstatus := 0, dcause := 0, dinfo := 0, dsrc := 0, dlds := 0, dldpre := Vector.replicate 2 0
    ien := 0, ipend := 0, qarm := 0, timerAt := 0
    vcfg := 3, vstart := 0, vcsr := 0, vfault := 0, evstart := 0, dvstart := 0
    tgctl := 0, tgspin := 0, tglive := 0, tgpath := 0, tpc := [], yielded := 0
    mxreject := 0, seghint := 0, rgDone := 0, rgIssued := 0
    loads := [], modeWrites := [], rfaults := [], pend := none, run := .idle, lastLane := none, dbg := 0, fenceOn := false, fence := none
    fetchBad := none, qseen := [] }

/-- A tile as start-up leaves it: in T3, no launch in force (R37, R98, R364; WK_TSTATE reset T3). -/
def Tile.reset : Tile :=
  { ctx := Vector.replicate 8 Ctx.reset, store := stEmpty 18, poison := [], latent := [], vr := stEmpty 16
    lsBytes := 0, launch := none, launchEnd := none, occ := 0, vregs := 0, det := false, chartLeave := false, held := false
    retired := false, tstate := .t3, level := 0, duty := 16, cycBase := 0, cycMark := 0, idleMark := 0, seq := 0
    mb := [], reads := [], writes := [], l1d := [], l1i := [], tc := [], rangeQ := [], lane := [], mx := [], mxShadow := none, mxActive := [], unfenced := []
    act := [], actSeq := 0, dma := [], dmaReqs := 0, lastSent := [], endCause := 0, endEpc := 0, launchEvent := 0 }

end Machine
end Sys2Proof
end

