-- ==== Sys2Proof/Machine/State.lean ====
section
/-!
DEFINITION. The state of the module, the reasons a step can stop, and the state after reset.
-/

namespace Sys2Proof
namespace Machine

/-- Reasons the machine stops with a fault. No rule of the spec stops the module as a whole, so no meaning raises
one; the type has one constructor so that it is not empty. -/
inductive Fault where
  /-- Raised by no meaning. Safe: a stop where the hardware goes on. -/
  | stuck
deriving DecidableEq, Repr

/-- Reasons a command is refused. -/
inductive Refusal where
  /-- A command whose meaning has not been written. Safe: the model stops where the hardware goes on. -/
  | notModelled (mnemonic : String)
deriving DecidableEq, Repr

/-- The state of the module. -/
structure State where
  /-- Commands that wait, first in, first out (the model's own). -/
  pending : List Instr
  /-- AON ticks since the model began; the model's own time (assumption 2). -/
  now : Nat
  /-- Free values drawn so far (the model's own; assumption 4). -/
  draws : Nat
  /-- The tiles; an absent tile is as `Tile.reset`. -/
  tiles : SMap Tile
  /-- Corrected tile-store words of each tile: one more than the tick of the last record, 0 for none, and the words since
  (R244). -/
  sram : SMap (Nat × Nat)
  /-- The coherent contents of module global memory (R170). -/
  mem : Store
  /-- Poisoned 32-byte sectors of module memory, by address / 32 (R243). -/
  mpoison : List Nat
  /-- Compute dies (R232 to R251). -/
  cdies : SMap CDieSt
  /-- Wake controllers and record queues of the 32 dies (R434). -/
  wakes : SMap WakeSt
  /-- The Chart in force (R63). -/
  chart : Option Chart
  /-- LS_FENCED (R444). -/
  lsFenced : Word
  /-- Bridges reported down: die index * 8 + egress code (R257). -/
  bridgesDown : List Nat
  /-- Fabric, link ports and update engines (10, 11). -/
  link : LinkSt
  /-- The host attachment (12). -/
  hx : HxSt
  /-- Queues, fences and the Letterbox (13). -/
  qf : QfSt
  /-- Start-up, reset and the trim set (19, 20). -/
  su : SuSt
  /-- The Chart slots and Chart registers (02). -/
  ch : ChSt
  /-- Power (15). -/
  pw : PwSt
  /-- Lodestars, draining, stored fences, availability (18). -/
  rec_ : RecSt
  /-- Security and debug (16). -/
  sec : SecSt
  /-- The Franking Meter (17). -/
  fm : MeterSt
  /-- The service runtime (14). -/
  rt : RtSt
  /-- What has been sent outside, in order (the model's own log). -/
  out : List Out
deriving DecidableEq, Repr

/-- The module before it is first powered, as it leaves the die line: every register at its reset value, the flash not
yet written (assumption 10). -/
def State.reset : State :=
  { pending := [], now := 0, draws := 0, tiles := [], sram := [], mem := stEmpty 30, mpoison := [], cdies := [], wakes := []
    chart := none, lsFenced := 0, bridgesDown := [], link := LinkSt.reset, hx := HxSt.reset, qf := QfSt.reset
    su := SuSt.reset, ch := ChSt.reset, pw := PwSt.reset, rec_ := RecSt.reset, sec := SecSt.reset
    fm := MeterSt.reset (if Config.metered then 1 else 2), rt := RtSt.reset, out := [] }

end Machine
end Sys2Proof
end

