-- ==== Sys2Proof/Machine/Ops.lean ====
section
/-!
DEFINITION. The named operations over the state: tiles, contexts and their registers, free values, error records, the
address map and the home of an address, and access to the coherent memory.
-/

namespace Sys2Proof
namespace Machine

/-! Tiles and contexts -/

/-- The tile g. -/
def getT (s : State) (t : Nat) : Tile := mget s.tiles Tile.reset t

/-- The state with tile g replaced. -/
def setT (s : State) (t : Nat) (x : Tile) : State := { s with tiles := mset s.tiles t x }

/-- The state with tile g updated. -/
def modT (s : State) (t : Nat) (f : Tile → Tile) : State := setT s t (f (getT s t))

/-- A context number kept in a record, as an index. -/
def cix (c : Nat) : CtxId := Fin.ofNat 8 c

/-- Context c of tile g. -/
def getC (s : State) (t : Nat) (c : CtxId) : Ctx := (getT s t).ctx[c]

/-- The tile with context c replaced. -/
def tileSetC (T : Tile) (c : CtxId) (x : Ctx) : Tile := { T with ctx := T.ctx.set c x }

/-- The state with context c of tile g replaced. -/
def setC (s : State) (t : Nat) (c : CtxId) (x : Ctx) : State := setT s t (tileSetC (getT s t) c x)

/-- The state with context c of tile g updated. -/
def modC (s : State) (t : Nat) (c : CtxId) (f : Ctx → Ctx) : State := setC s t c (f (getC s t c))

/-- Read x[r]: x0 reads zero (R69). -/
def xget (C : Ctx) (r : Reg) : Word := if r = 0 then 0 else C.x[r]

/-- Write x[r]: a write to x0 is discarded (R69, R102). -/
def xset (C : Ctx) (r : Reg) (v : Word) : Ctx := if r = 0 then C else { C with x := C.x.set r v }

/-- Draw one unpredictable 64-bit value (R3). -/
def draw (s : State) : Word × State := (Config.freeValue s.draws, { s with draws := s.draws + 1 })

/-! Clocks -/

/-- Arithmetic-clock cycles per AON tick of 80 ns at a level of R369, gated cycles not counted (R97, R369). -/
def cyclesPerTick (level : Nat) : Nat := ([320, 240, 160, 80, 60, 40, 20, 10] : List Nat).getD level 10

/-- TL_CYCLE.COUNT at AON-tick resolution (R97; assumption 2). -/
def tileCycle (s : State) (t : Nat) : Nat :=
  let T := getT s t
  (if T.tstate = .t0 then T.cycBase + (s.now - T.cycMark) * cyclesPerTick T.level else T.cycBase) % 2 ^ 64

/-- Count n events of a kind of R408: 1 CELLS, 2 GROUPS, 3 LSBYTES, 4 SECTORS, 5 FABRIC. -/
def actAdd (T : Tile) (k n : Nat) : Tile := { T with act := mset T.act k (mget T.act 0 k + n) }

/-- The operating point of a level: 0 4.0, 1 3.0, 2 2.0, 3 1.0 GHz (R369, R408). -/
def levelOp (level : Nat) : Nat := min level 3

/-- Tile control posts the counts since the tile's previous post to the meter, provided some counter is nonzero (R408);
key 0 of `act` holds TL_CYCLE as it was then. -/
def sendPost (s : State) (t : Nat) : State :=
  let T := getT s t
  let cyc := tileCycle s t
  let counts := (cyc - mget T.act 0 0) :: ([1, 2, 3, 4, 5].map (mget T.act 0))
  if counts.all (· == 0) then s
  else
    let s := setT s t { T with act := mset [] 0 cyc, actSeq := (T.actSeq + 1) % 2 ^ 32 }
    { s with fm := { s.fm with transit := s.fm.transit ++
      [{ tile := t, op := levelOp T.level, seq := (T.actSeq + 1) % 2 ^ 32, counts := counts }] } }

/-- A tile whose clock changes: the cycles run so far are kept, and a change of level posts its counts (R97, R363,
R408). -/
def reclock (s : State) (t : Nat) (st : TState) (level duty : Nat) : State :=
  let s := if (getT s t).level = level then s else sendPost s t
  setT s t { getT s t with tstate := st, level := level, duty := duty, cycBase := tileCycle s t, cycMark := s.now }

/-! Dies and error records -/

/-- The compute die d. -/
def getD (s : State) (d : Nat) : CDieSt := mget s.cdies CDieSt.reset d
/-- The state with compute die d replaced. -/
def setD (s : State) (d : Nat) (x : CDieSt) : State := { s with cdies := mset s.cdies d x }
/-- The wake controller of die index i. -/
def getW (s : State) (i : Nat) : WakeSt := mget s.wakes WakeSt.reset i
/-- The state with a wake controller replaced. -/
def setW (s : State) (i : Nat) (x : WakeSt) : State := { s with wakes := mset s.wakes i x }

/-- DETAIL bytes filled to 32 (R429). -/
def detail32 (b : List Byte) : List Byte := (b ++ List.replicate 32 0#8).take 32

/-- Queue an error record on a die (R429, R434): a record that finds the queue full is dropped, LOST counts it, its
DIE_SEQ is consumed and the next record carries OVERFLOW (R435). -/
def postErr (s : State) (die cls code unit addr : Nat) (detail : List Byte) (flags : Nat := 0) (count : Nat := 1) :
    State :=
  let w := getW s die
  if w.errQ.length ≥ 256 then
    setW s die { w with lost := (w.lost + 1) % 2 ^ 16, ovf := true, nextSeq := (w.nextSeq + 1) % 2 ^ 32 }
  else
    let r : ErrRec :=
      { cls := cls, flags := setFld flags 1 1 (b2n w.ovf), die := die, code := code, unit := unit
        dieSeq := w.nextSeq, count := count, addr := addr, detail := detail32 detail }
    setW s die { w with errQ := w.errQ ++ [r], nextSeq := (w.nextSeq + 1) % 2 ^ 32, ovf := false }

/-- A Lodestar answers from step 2 of start-up on, except in the reset hold, while one of them is neither held in reset
nor absent; in ROM it answers firmware updates only (R438, R440, R447, R448). -/
def lsAnswers (s : State) : Bool :=
  s.su.auxGood && decide (s.su.stage ≥ 1) && !s.su.hold && !s.rec_.held.getD s.hx.activeLs true
    && !s.rec_.absent.getD s.hx.activeLs true

/-- The active Lodestar's firmware acts on the module, from step 3 of start-up on. -/
def lsAlive (s : State) : Bool := lsAnswers s && decide (s.su.stage ≥ 3) && s.su.fail != 1

/-- A SCAN session is open: no Chart loads and no launch starts (R397). -/
def scanOpen (s : State) : Bool := s.sec.session.any (fun e => e.level == 3)

/-- The die index of the active Lodestar (R36). -/
def lsDie (s : State) : Nat := 28 + s.hx.activeLs

/-- LS_FENCED.CAUSE of compute die d: 0 none, 1 THERMAL, 2 FATAL, 3 ORPHAN (R444). -/
def fenceCause (s : State) (d : Nat) : Nat := wfld s.lsFenced (2 * d + 1) (2 * d)

/-- The failure domain of compute die d is fenced (R436). -/
def fenced (s : State) (d : Nat) : Bool := fenceCause s d != 0

/-! The Chart in force -/

/-- PERMIT.ENABLES bit i; clear with no Chart in force (R48). -/
def permit (s : State) (i : Nat) : Bool := match s.chart with | some c => c.enables.testBit i | none => false

/-- The module's own ID, set by the Chart (R40). -/
def ownId (s : State) : Nat := match s.chart with | some c => c.moduleId | none => 0

/-- The constellation that holds a tile in TILES (R57). -/
def constOfTile (s : State) (t : Nat) : Option Constel :=
  match s.chart with | some c => c.consts.find? (fun k => k.tiles.testBit t) | none => none

/-- The constellation of a number. -/
def constById (s : State) (id : Nat) : Option Constel :=
  match s.chart with | some c => c.consts.find? (fun k => k.id == id) | none => none

/-- DIES and STRIPE of region r (R49). -/
def interleave (ch : Chart) (r : Nat) : Nat × Nat := ch.interleave.getD r (0, 0)

/-- The shift of a STRIPE code (R50). -/
def stripeShift (st : Nat) : Nat := ([0, 12, 16, 21] : List Nat).getD st 0

/-! Levels (R369, R371, R373) -/

/-- Clock cycles of 16 at a level (R369). -/
def levelDuty (l : Nat) : Nat := ([16, 16, 16, 16, 12, 8, 4, 2] : List Nat).getD l 2

/-- The top level of a constellation (R369). -/
def topLevel (s : State) (k : Constel) : Nat := max k.env.topOp ((s.chart.map (·.env.topOp)).getD 0)

/-- The level at which a tile is to run: its constellation's, level 5 or slower under the forces of its die (R369, R371,
R373). With the ROM defaults none runs faster than 2.0 GHz (R453). -/
def tileLevel (s : State) (t : Nat) : Nat :=
  let l := match constOfTile s t with | some k => mget s.pw.level (topLevel s k) k.id | none => 0
  let w := (getW s (t / 64)).wkState.toNat
  let l := if w.testBit 2 || w.testBit 3 || s.pw.lifting.testBit (t / 64) then max l 5 else l
  if s.su.trimSrc = 2 then max l 2 else l

/-- A wake event reaches a tile: from T1 or T2 it goes to T0 (R365). -/
def wakeTile (s : State) (t : Nat) : State :=
  let T := getT s t
  if T.tstate = .t1 ∨ T.tstate = .t2 then
    modT (reclock s t .t0 (tileLevel s t) (levelDuty (tileLevel s t))) t (fun T => { T with idleMark := s.now })
  else s

/-- A tile takes its level (R363). -/
def relevel (s : State) (t : Nat) : State :=
  let T := getT s t
  let l := tileLevel s t
  if T.level = l ∨ T.tstate = .t3 then s else reclock s t T.tstate l (levelDuty l)

/-! The interleave -/

/-- GiB shares of earlier regions on die d: the stack offset at which region r begins there (R50). -/
def regionBase (ch : Chart) (r d : Nat) : Nat :=
  (List.range r).foldl (fun b j =>
    let m := (interleave ch j).1
    if m.testBit d then b + 0x40000000 / popc 16 m else b) 0

/-- Home die and stack offset of a module address below 1 TiB; none in an unmapped region (R49, R50). -/
def homeOf (s : State) (a : Nat) : Option (Nat × Nat) :=
  match s.chart with
  | none => none
  | some ch =>
    let r := a >>> 30
    let (m, st) := interleave ch r
    let k := popc 16 m
    if st = 0 ∨ k = 0 then none
    else
      let sh := stripeShift st
      let off := a % 0x40000000
      let sn := off >>> sh
      let d := (bitsOf 16 m).getD (sn % k) 0
      some (d, regionBase ch r d + ((sn / k) <<< sh) + off % 2 ^ sh)

/-- The module address of a stack offset: the inverse of R50, none where no region uses the offset. -/
def unhome (s : State) (d off : Nat) : Option Nat :=
  match s.chart with
  | none => none
  | some ch =>
    (List.range 1024).findSome? fun r =>
      let (m, st) := interleave ch r
      let k := popc 16 m
      if st = 0 ∨ k = 0 ∨ m.testBit d = false then none
      else
        let base := regionBase ch r d
        if off < base ∨ off ≥ base + 0x40000000 / k then none
        else
          let sh := stripeShift st
          let rel := off - base
          let idx := ((bitsOf 16 m).findIdx? (· == d)).getD 0
          some ((r <<< 30) + ((((rel >>> sh) * k + idx) <<< sh) + rel % 2 ^ sh))

/-! The module address map (R35) -/

/-- What a 48-bit module address names. -/
inductive Place where
  /-- Module memory: home die and stack offset (R50). -/
  | mem (d off : Nat)
  /-- A tile store window: tile and local-store offset (R37). -/
  | window (t off : Nat)
  /-- A die control space: die index and offset (R36). -/
  | ctrl (i off : Nat)
  /-- A hole or an unmapped region: an address error (R39, R49). -/
  | hole
deriving DecidableEq, Repr

/-- The division of the module address space (R35 to R38). -/
def placeOf (s : State) (a : Nat) : Place :=
  if a < 0x10000000000 then
    match homeOf s a with
    | some (d, o) => .mem d o
    | none => .hole
  else if 0x10000000000 ≤ a ∧ a < 0x10080000000 then
    let g := (a - 0x10000000000) / 0x200000
    let o := (a - 0x10000000000) % 0x200000
    let T := getT s g
    if o < T.lsBytes ∧ T.tstate ≠ .t3 ∧ T.retired = false then .window g o else .hole
  else if 0x20000000000 ≤ a ∧ a < 0x20020000000 then
    .ctrl ((a - 0x20000000000) / 0x1000000) ((a - 0x20000000000) % 0x1000000)
  else .hole

/-- The status of an access to a place by a requester that left its tile: 0 performed, 0x11 FENCED (R39). -/
def placeFenced (s : State) : Place → Bool
  | .mem d _ => fenced s d
  | .window g _ => fenced s (g / 64)
  | _ => false

/-! Coherent memory -/

/-- The 32-byte sectors that n bytes at a touch, by number. -/
def sectorsOf (a n : Nat) : List Nat :=
  if n = 0 then [] else (List.range ((a + n - 1) / 32 + 1 - a / 32)).map (a / 32 + ·)

/-- Some sector touched by n bytes at a is poisoned (R243). -/
def memPoisoned (s : State) (a n : Nat) : Bool := (sectorsOf a n).any (fun k => s.mpoison.contains k)

/-- Write masked bytes within one sector at their point of coherence: a write of the whole sector clears its poison,
a partial one leaves it (R243). -/
def memWriteSector (s : State) (a : Nat) (bs : List (Option Byte)) (poison : Bool := false) : State :=
  let full := bs.length == 32 && a % 32 == 0 && bs.all Option.isSome
  let s := { s with mem := stWriteOpt s.mem a bs }
  if poison then { s with mpoison := sIns s.mpoison (a / 32) }
  else if full then { s with mpoison := sDel s.mpoison (a / 32) } else s

/-- Write a byte list that may cross sectors, sector by sector (R233, R243). -/
def memWrite (s : State) (a : Nat) (bs : List Byte) : State :=
  (List.range (bs.length / 32 + 2)).foldl (fun s i =>
    let lo := if i = 0 then a else (a / 32 + i) * 32
    let hi := min (a + bs.length) ((a / 32 + i + 1) * 32)
    if lo < hi then memWriteSector s lo ((bs.drop (lo - a)).take (hi - lo) |>.map some) else s) s

/-! Tile stores -/

/-- Some word touched by n local-store bytes at o is poisoned or holds an error that the read finds (R218). -/
def lsPoisoned (T : Tile) (o n : Nat) : Bool :=
  n != 0 && ((T.poison ++ T.latent).any (fun w => o / 8 ≤ w && w ≤ (o + n - 1) / 8))

/-- A read of n local-store bytes finds the latent errors among its words: each is marked poisoned and one deferred
record posted for it (R218, R219, R244). -/
def lsRead (s : State) (t o n : Nat) : List Byte × Bool × State :=
  let T := getT s t
  let found := T.latent.filter (fun w => n != 0 && o / 8 ≤ w && w ≤ (o + n - 1) / 8)
  let bytes := stReadN T.store o n
  let bad := lsPoisoned T o n
  let s := found.foldl (fun s w =>
    let s := postErr s (t / 64) 1 0x0103 t (0x10000000000 + t * 0x200000 + 8 * w) []
    modT s t (fun T => { T with poison := sIns T.poison w, latent := sDel T.latent w })) s
  (bytes, bad, s)

/-- Write local-store bytes: a word whose 8 bytes one access writes loses its poison (R218). -/
def lsWriteT (T : Tile) (o : Nat) (bs : List Byte) : Tile :=
  let covered := fun w => o ≤ 8 * w && 8 * w + 8 ≤ o + bs.length
  { T with
    store := stWriteN T.store o bs
    poison := T.poison.filter (fun w => !covered w)
    latent := T.latent.filter (fun w => !covered w) }

/-- Write local-store bytes of tile g. -/
def lsWrite (s : State) (t o : Nat) (bs : List Byte) : State := modT s t (fun T => lsWriteT T o bs)

/-- Write the words that n bytes at o touch poisoned, whole: a word that was not is found by the first read (R219). -/
def lsPoison (s : State) (t o n : Nat) : State :=
  if n = 0 then s
  else modT s t (fun T => { T with
    latent := (List.range ((o + n - 1) / 8 + 1 - o / 8)).foldl (fun p i =>
      if T.poison.contains (o / 8 + i) then p else sIns p (o / 8 + i)) T.latent })

end Machine
end Sys2Proof
end

