-- ==== Sys2Proof/Machine/Operands.lean ====
section
/-!
DEFINITION. Operand forms: segments and their checks (R74 to R79), default segments (R76), and the CSRs with their
access rules (R97, R119, R145, R167, R212, R236, R376).
-/

namespace Sys2Proof
namespace Machine

/-- A fault an instruction raises: cause code of Table 1 of 04, TL_EINFO, and the fields of TL_ECAUSE. -/
structure FaultInfo where
  code : Nat
  info : Word
  seg : Nat
  access : Nat
  half : Bool
deriving DecidableEq, Repr

/-- A fault with no access fields. -/
def plainFault (code : Nat) (info : Word) : FaultInfo := { code := code, info := info, seg := 0, access := 0, half := false }

/-- Permission of an access kind: 0 fetch needs X, 1 load R, 2 store W, 3 read-modify-write both (R75). -/
def permOk (sega : Word) (kind : Nat) : Bool :=
  match kind with
  | 0 => sega.toNat.testBit 62
  | 1 => sega.toNat.testBit 60
  | 2 => sega.toNat.testBit 61
  | _ => sega.toNat.testBit 60 && sega.toNat.testBit 61

/-- The check of R75: none, or the cause code. -/
def segCheck (C : Ctx) (seg : SegId) (o n kind : Nat) : Option Nat :=
  if permOk C.sega[seg] kind = false then some 0x03
  else if o ≥ 2 ^ 48 ∨ o + n > wfld C.segl[seg] 47 0 then some 0x04
  else if seg = 2 ∧ o < wfld C.stklow 47 0 then some 0x05
  else none

/-- The address a segment produces, modulo 2^48 (R75). -/
def segAddr (C : Ctx) (seg : SegId) (o : Nat) : Nat := (wfld C.sega[seg] 47 0 + o) % 2 ^ 48

/-- The default segment of a base register: seg2 for x2, seg1 for any other (R76). -/
def defSeg (rs1 : Reg) : SegId := if rs1 = 2 then 2 else 1

/-- The segment of an instruction: the named one, else the default of R76. -/
def useSeg (seg : Option SegId) (rs1 : Reg) : SegId := seg.getD (defSeg rs1)

/-- A seg6 access goes to another module (R40). -/
def isRemote (s : State) (C : Ctx) (seg : SegId) : Bool := seg == 6 && wfld C.sega[seg] 59 48 != ownId s

/-- The address under which an access travels and is cached: the module address, or, on its way to another module, the
fabric address in bits [59:0] with bit 60 set as the model's own mark (R40, R77, R220). -/
def fabAddr (s : State) (C : Ctx) (seg : SegId) (o : Nat) : Nat :=
  if isRemote s C seg then 2 ^ 60 + wfld C.sega[seg] 59 48 * 2 ^ 48 + segAddr C seg o else segAddr C seg o

/-- An address on its way to another module. -/
def isFabric (a : Nat) : Bool := decide (2 ^ 60 ≤ a)

/-- ADDR_ERROR found before the access leaves the tile (R77, R37 to R39, R49, R36): n bytes at segment offset o. The
FM control space accepts no access of a tile's instruction, and a die control space takes whole aligned words of 4
or 8 bytes (assumption 22). -/
def addrError (s : State) (t : Nat) (C : Ctx) (seg : SegId) (o n : Nat) : Bool :=
  let a := segAddr C seg o
  if seg = 3 then a + n > (getT s t).lsBytes
  else if isRemote s C seg then false
  else
    let bad := fun (p : Place) => match p with
      | .hole => true
      | .ctrl i off => i == 30 || !(n == 4 || n == 8) || off % n != 0
      | _ => false
    bad (placeOf s a) || bad (match placeOf s ((a + n - 1) % 2 ^ 48) with | .ctrl _ _ => placeOf s a | p => p)

/-- The halves of an access: one piece, or two at the boundary B of R79, as (offset, length). -/
def halves (o n : Nat) : List (Nat × Nat) :=
  if o % n = 0 then [(o, n)] else
    let B := o - o % n + n
    [(o, B - o), (B % 2 ^ 64, o + n - B)]

/-- Check every half of an access under R75 and then R77 to R39, in the order of R108; the faulting offset and half
go to TL_EINFO and TL_ECAUSE. -/
def checkAccess (s : State) (t : Nat) (C : Ctx) (seg : SegId) (kind : Nat) (hs : List (Nat × Nat)) : Option FaultInfo :=
  let mk := fun (code off : Nat) (up : Bool) =>
    { code := code, info := toW (off % 2 ^ 48), seg := seg.val, access := kind, half := up : FaultInfo }
  let rec seek (f : Nat × Nat → Option Nat) (up : Bool) : List (Nat × Nat) → Option FaultInfo
    | [] => none
    | h :: r => match f h with
      | some code => some (mk code h.1 up)
      | none => seek f true r
  match seek (fun h => segCheck C seg h.1 h.2 kind) false hs with
  | some f => some f
  | none => seek (fun h => if addrError s t C seg h.1 h.2 then some 0x07 else none) false hs

/-! CSRs -/

/-- TL_RSCTL (R85). -/
def rsctl (C : Ctx) : Word := toW (C.rsTop % 16 * 256 + C.rsCount % 32)

/-- TL_CTXTIMER.COUNT now (R119). -/
def timerCount (s : State) (C : Ctx) : Nat := C.timerAt - s.now

/-- MX_QSTAT.HEAD_WAIT and the counts of R212 are given by the matrix family; this is the part that needs no
interlock test. -/
def mxQueued (T : Tile) : Nat := T.mx.length

/-- The oldest descriptor that has not issued (R201). -/
def mxHead (T : Tile) : Option MxEnt := T.mx.find? (fun m => m.issued.isNone)

/-- FEAT0 to FEAT7 (R99). -/
def featReg (i : Nat) : Word :=
  match i with
  | 0 => 0x10240B01#64
  | 1 => 0x701#64
  | 2 => 0x3FFF#64
  | 3 => 0x13F#64
  | _ => 0

/-- The brake shows on the tile's die (R376, WK_STATE.BRAKE). -/
def dieBrake (s : State) (t : Nat) : Bool := (getW s (t / 64)).wkState.toNat.testBit 2

/-- Read a CSR; none for a number no table lists (R97). `headWait` is MX_QSTAT.HEAD_WAIT. -/
def csrRead (s : State) (t : Nat) (c : CtxId) (headWait : Nat) (n : Nat) : Option Word :=
  let T := getT s t
  let C := T.ctx[c]
  if n = 0x000 then some (toW (b2n C.sup * 2 ^ 12 + b2n T.det * 2 ^ 8 + b2n C.rstrap))
  else if 0x020 ≤ n ∧ n ≤ 0x027 then some C.sega[cix (n - 0x020)]
  else if 0x028 ≤ n ∧ n ≤ 0x02F then some C.segl[cix (n - 0x028)]
  else if n = 0x030 then some C.stklow
  else if 0x040 ≤ n ∧ n ≤ 0x047 then some C.e[cix (n - 0x040)]
  else if n = 0x050 then some C.lpstart[0]
  else if n = 0x051 then some C.lpend[0]
  else if n = 0x052 then some C.lpcount[0]
  else if n = 0x054 then some C.lpstart[1]
  else if n = 0x055 then some C.lpend[1]
  else if n = 0x056 then some C.lpcount[1]
  else if n = 0x058 then some (rsctl C)
  else if n = 0x060 then some (C.acc.setWidth 64)
  else if n = 0x061 then some ((C.acc >>> 64).setWidth 64)
  else if n = 0x070 then some (toW (C.mxDone.toNat * 2 ^ 32 + C.mxIssued.toNat))
  else if n = 0x080 then some C.entry
  else if n = 0x081 then some C.vbase
  else if n = 0x082 then some C.epc
  else if n = 0x083 then some C.estatus
  else if n = 0x084 then some C.ecause
  else if n = 0x085 then some C.einfo
  else if n = 0x086 then some C.esrc
  else if n = 0x087 then some C.elds
  else if n = 0x088 then some C.eldpre[0]
  else if n = 0x089 then some C.eldpre[1]
  else if n = 0x090 then some C.dpc
  else if n = 0x091 then some C.dstatus
  else if n = 0x092 then some C.dcause
  else if n = 0x093 then some C.dinfo
  else if n = 0x094 then some C.dsrc
  else if n = 0x095 then some C.dlds
  else if n = 0x096 then some C.dldpre[0]
  else if n = 0x097 then some C.dldpre[1]
  else if n = 0x098 then some C.ien
  else if n = 0x099 then some C.ipend
  else if n = 0x09A then some (toW (timerCount s C))
  else if n = 0x09B then some C.qarm
  else if n = 0x0C0 then some C.vcfg
  else if n = 0x0C1 then some C.vstart
  else if n = 0x0C2 then some C.vcsr
  else if n = 0x0C3 then some C.vfault
  else if n = 0x0C4 then some C.evstart
  else if n = 0x0C5 then some C.dvstart
  else if n = 0x0C6 then some (toW T.vregs)
  else if n = 0x0D0 then some C.tgctl
  else if n = 0x0D1 then some (C.tglive.setWidth 64)
  else if n = 0x0D2 then some ((C.tglive >>> 64).setWidth 64)
  else if n = 0x0D3 then some (C.tgpath.setWidth 64)
  else if n = 0x0D4 then some ((C.tgpath >>> 64).setWidth 64)
  else if n = 0x0D5 then some C.tgspin
  else if n = 0x0D6 then some T.occ
  else if n = 0x0E0 then some C.mxreject
  else if n = 0x0E1 then
    some (toW ((if (mxHead T).isSome then headWait % 4 else 0) * 2 ^ 18
      + (match mxHead T with | some m => m.ctx % 8 | none => 0) * 2 ^ 15
      + mxQueued T % 32 * 2 ^ 8 + (T.mx.filter (fun m => m.issued.isSome)).length % 32))
  else if n = 0x0F0 then some C.seghint
  else if n = 0x0F1 then
    some (toW (b2n (T.rangeQ.any (fun r => r.started)) * 8 + T.rangeQ.length % 8))
  else if n = 0x0F2 then some (toW (C.rgDone.toNat * 2 ^ 32 + C.rgIssued.toNat))
  else if n = 0x100 then some (toW (tileCycle s t))
  else if n = 0x101 then some (toW (t * 2 ^ 16 + c.val))
  else if n = 0x102 then some (toW (b2n (dieBrake s t) * 2 ^ 8 + T.duty % 32 * 8 + T.level % 8))
  else if n = 0x103 then some (toW (b2n T.chartLeave))
  else if 0xF00 ≤ n ∧ n ≤ 0xF07 then some (featReg (n - 0xF00))
  else none

/-- The entry and interrupt CSRs of Table 3 of 04, and LN_EVSTART and LN_DVSTART: no user access (R119, R145). -/
def csrSupOnly (n : Nat) : Bool := (0x080 ≤ n && n ≤ 0x09B) || n == 0x0C4 || n == 0x0C5

/-- User level may write the CSR (R97 Table 6, R145, R237). -/
def csrUserWrite (n : Nat) : Bool :=
  n == 0x000 || (0x050 ≤ n && n ≤ 0x056) || n == 0x060 || n == 0x061 || n == 0x0C0 || n == 0x0C1 || n == 0x0C2
    || n == 0x0F0

/-- The RW bits of a CSR: a bit outside is reserved, RO or W1C (R4, R8). -/
def csrRw (n : Nat) : Nat :=
  if n = 0x000 then 1
  else if 0x020 ≤ n ∧ n ≤ 0x027 then
    if n = 0x026 then 0x7FFFFFFFFFFFFFFF else 0x7000FFFFFFFFFFFF
  else if 0x028 ≤ n ∧ n ≤ 0x030 then 0xFFFFFFFFFFFF
  else if 0x040 ≤ n ∧ n ≤ 0x047 then 0xC000FFFFFFFFFFFC
  else if n = 0x050 ∨ n = 0x051 ∨ n = 0x054 ∨ n = 0x055 then 0xFFFFFFFFFFFF
  else if n = 0x052 ∨ n = 0x056 then 0xFFFFFFFF
  else if n = 0x060 ∨ n = 0x061 then 0xFFFFFFFFFFFFFFFF
  else if n = 0x080 then 1
  else if n = 0x081 then 0xFFFFFFFFF000
  else if n = 0x082 ∨ n = 0x090 then 0xFFFFFFFFFFFC
  else if n = 0x083 then 1
  else if n = 0x091 then 3
  else if n = 0x084 ∨ n = 0x092 then 0x7F33F
  else if n = 0x085 ∨ n = 0x086 ∨ n = 0x093 ∨ n = 0x094 then 0xFFFFFFFFFFFFFFFF
  else if n = 0x087 ∨ n = 0x095 then 0xFFFF
  else if n = 0x088 ∨ n = 0x089 ∨ n = 0x096 ∨ n = 0x097 then 0xFFFFFFFFFFFFFFFF
  else if n = 0x098 then 7
  else if n = 0x09A then 0xFFFFFFFF
  else if n = 0x09B then 0x1FFF
  else if n = 0x0C0 then 0x7FF0033
  else if n = 0x0C1 ∨ n = 0x0C4 ∨ n = 0x0C5 then 0xF
  else if n = 0x0C2 then 0x1F07
  else if n = 0x0D0 then 0xFFFFFF0000
  else if n = 0x0F0 then 0xFFFF
  else 0

/-- LN_VCFG with VL clamped to the VLMAX of its SEW, and ALT 0 unless SEW is 16 (R124). -/
def fixVcfg (w : Nat) : Nat :=
  let sew := fld w 1 0
  let vlmax := 8192 / (8 * 2 ^ sew)
  let w := setFld w 26 16 (min (fld w 26 16) vlmax)
  if sew = 1 then w else setFld w 4 4 0

/-- The value a CSR-writing instruction delivers to RW fields (R97). -/
def csrDeliver (op : CsrOp) (old x : Word) : Word :=
  match op with | .csrw => x | .csrs => old ||| x | .csrc => old &&& ~~~x

/-- The bits a CSR-writing instruction clears in W1C fields (R97). -/
def csrClears (op : CsrOp) (x : Word) : Word := match op with | .csrw => x | .csrs => x | .csrc => 0

/-- A write of TL_TGLIVE (R166): while PARKED, each 0 ends its thread; otherwise ignored. -/
def tgliveWr (C : Ctx) (hi : Bool) (v : Word) : Ctx :=
  if C.tgctl.toNat.testBit 1 then
    let m : BitVec 128 := if hi then (v.setWidth 128 <<< 64) ||| (BitVec.ofNat 128 (2 ^ 64 - 1))
      else v.setWidth 128 ||| (BitVec.ofNat 128 (2 ^ 64 - 1) <<< 64)
    { C with tglive := C.tglive &&& m }
  else C

/-- Write a CSR field by field under the access types of R4: `old` is the value read, `x` the operand. A write of
TL_CTX_MODE or seg0 is a mode write and enters its shadow (R94). -/
def csrWrite (s : State) (C : Ctx) (op : CsrOp) (n : Nat) (old x : Word) : Ctx :=
  let rw := toW (csrRw n)
  let v := (csrDeliver op old x &&& rw) ||| (old &&& ~~~rw)
  if n = 0x000 then { C with modeWrites := C.modeWrites ++ [{ remain := 3, which := 0, val := v }] }
  else if n = 0x020 then { C with modeWrites := C.modeWrites ++ [{ remain := 3, which := 1, val := v }] }
  else if n = 0x028 then { C with modeWrites := C.modeWrites ++ [{ remain := 3, which := 2, val := v }] }
  else if 0x021 ≤ n ∧ n ≤ 0x027 then { C with sega := C.sega.set (cix (n - 0x020)) v }
  else if 0x029 ≤ n ∧ n ≤ 0x02F then { C with segl := C.segl.set (cix (n - 0x028)) v }
  else if n = 0x030 then { C with stklow := v }
  else if 0x040 ≤ n ∧ n ≤ 0x047 then { C with e := C.e.set (cix (n - 0x040)) v }
  else if n = 0x050 then { C with lpstart := C.lpstart.set 0 v }
  else if n = 0x051 then { C with lpend := C.lpend.set 0 v }
  else if n = 0x052 then { C with lpcount := C.lpcount.set 0 v }
  else if n = 0x054 then { C with lpstart := C.lpstart.set 1 v }
  else if n = 0x055 then { C with lpend := C.lpend.set 1 v }
  else if n = 0x056 then { C with lpcount := C.lpcount.set 1 v }
  else if n = 0x060 then { C with acc := (C.acc >>> 64 <<< 64) ||| v.setWidth 128 }
  else if n = 0x061 then { C with acc := (v.setWidth 128 <<< 64) ||| (C.acc.setWidth 64).setWidth 128 }
  else if n = 0x080 then { C with entry := v }
  else if n = 0x081 then { C with vbase := v }
  else if n = 0x082 then { C with epc := v }
  else if n = 0x083 then { C with estatus := v }
  else if n = 0x084 then { C with ecause := v }
  else if n = 0x085 then { C with einfo := v }
  else if n = 0x086 then { C with esrc := v }
  else if n = 0x087 then { C with elds := v }
  else if n = 0x088 then { C with eldpre := C.eldpre.set 0 v }
  else if n = 0x089 then { C with eldpre := C.eldpre.set 1 v }
  else if n = 0x090 then { C with dpc := v }
  else if n = 0x091 then { C with dstatus := v }
  else if n = 0x092 then { C with dcause := v }
  else if n = 0x093 then { C with dinfo := v }
  else if n = 0x094 then { C with dsrc := v }
  else if n = 0x095 then { C with dlds := v }
  else if n = 0x096 then { C with dldpre := C.dldpre.set 0 v }
  else if n = 0x097 then { C with dldpre := C.dldpre.set 1 v }
  else if n = 0x098 then { C with ien := v }
  else if n = 0x099 then { C with ipend := C.ipend &&& ~~~(csrClears op x &&& 7) }
  else if n = 0x09A then { C with timerAt := if v = 0 then 0 else s.now + v.toNat }
  else if n = 0x09B then { C with qarm := v }
  else if n = 0x0C0 then { C with vcfg := toW (fixVcfg v.toNat) }
  else if n = 0x0C1 then { C with vstart := v }
  else if n = 0x0C2 then { C with vcsr := v }
  else if n = 0x0C4 then { C with evstart := v }
  else if n = 0x0C5 then { C with dvstart := v }
  else if n = 0x0D0 then { C with tgctl := v }
  else if n = 0x0D1 then tgliveWr C false (csrDeliver op old x)
  else if n = 0x0D2 then tgliveWr C true (csrDeliver op old x)
  else if n = 0x0F0 then { C with seghint := v }
  else C

end Machine
end Sys2Proof
end

