-- ==== Sys2Proof/Machine/StackCache.lean ====
section
/-!
DEFINITION. The home of a line: domain fences (R436), the stack cache under its hints (R232 to R236), the code of
the stack and its records (R238 to R244), and the throttle's tokens (R248). The coherent value of every byte is held
in `State.mem`; a stack-cache line records presence, class and dirt.
-/

namespace Sys2Proof
namespace Machine

/-- A tile whose work is abandoned as by tile reset (R118): registers at their reset values, caches invalid, tile
store unpredictable at draw g; writes that have left for their point of coherence stay to be performed, their
results discarded. The launch on it ends with status `st`. -/
def tileCleared (T : Tile) (g st : Nat) : Tile :=
  let gone := (T.mb.filter (fun e => e.draining)).map (fun e =>
    ({ seq := e.seq, ord := e.seq, addr := e.addr, bytes := e.bytes, hint := e.hint, who := [], lane := none, txns := 1, status := none } : WriteReq))
  { Tile.reset with
    store := stScramble T.store g (List.range 8)
    vr := stScramble T.vr g (List.range 8)
    launch := T.launch
    launchEnd := if T.launch.isSome ∧ T.launchEnd.isNone then some st else T.launchEnd
    retired := T.retired
    held := T.held
    tstate := T.tstate, level := T.level, duty := T.duty, idleMark := T.idleMark
    seq := T.seq
    reads := (T.reads.filter (fun r => r.atomic.isSome && r.answer.isNone)).map
      (fun r => { r with owner := .prefetch false, l1d := false, l1i := false, tc := false })
    writes := (T.writes.map (fun w => { w with who := [], lane := none, txns := 1 })) ++ gone
    dma := T.dma, dmaReqs := T.dmaReqs, lastSent := T.lastSent, launchEvent := T.launchEvent }

/-- Stop tile g as by tile reset; its counts are posted, and its cycle counter and its posts restart (R97, R118,
R408). -/
def stopTile (s : State) (t st : Nat) : State :=
  let s := sendPost s t
  let T := getT s t
  let s := setT s t { tileCleared T s.draws st with cycMark := s.now }
  { s with draws := s.draws + 1 }

/-- The launch status a fault end carries in its receipt (R118, R328): TILE_FAULT of Table 6 of 13. -/
def endFault : Nat := 1

/-- A domain fence of compute die d (R436): the tiles stop, the stack cache is emptied for THERMAL and FATAL, and
LS_FENCED shows the cause; a FATAL cause is kept (R443). THERMAL
and FATAL fences are stored, and a domain fenced again needs a new release test (R437). The record of step 5 is given by the caller. -/
def domainFence (s : State) (d cause : Nat) (record : State → State) : State :=
  let was := fenceCause s d
  if was = 2 ∨ was = cause then s
  else
    let s := (List.range 64).foldl (fun s t => stopTile s (64 * d + t) endFault) s
    let D := getD s d
    let s := if cause = 3 then setD s d { D with sc := D.sc.map (fun p => (p.1, p.2.map (fun l => { l with dirty := [false, false, false, false] }))) }
      else setD s d { D with sc := [] }
    let s := { s with
      lsFenced := wset s.lsFenced (2 * d + 1) (2 * d) cause
      fm := { s.fm with transit := s.fm.transit.filter (fun m => m.tile / 64 != d) }
      rec_ := { s.rec_ with
        stored := if cause = 3 then s.rec_.stored else wset s.rec_.stored (2 * d + 1) (2 * d) cause
        passed := s.rec_.passed - (if s.rec_.passed.testBit d then 2 ^ d else 0)
        busy := s.rec_.busy - (if s.rec_.busy.testBit d then 2 ^ d else 0) } }
    record s

/-- The DOMAIN_FATAL record of an escalated error (R430, R433, R436). -/
def fatalRecord (d code addr : Nat) (s : State) : State :=
  postErr s d 3 0x0302 d addr (toLE 2 code) 1

/-- The throttle in force on a stack: DC_THERM.THROTTLE or the brake's 25 %, whichever is lower (R248, R373). -/
def throttle (s : State) (d : Nat) : Nat :=
  max (wfld (getD s d).dcTherm 2 1) (if (getW s d).wkState.toNat.testBit 2 then 2 else 0)

/-- Tokens are there for n sectors: always while nothing throttles (R248). -/
def tokensFor (s : State) (d n : Nat) : Bool := throttle s d == 0 || (getD s d).tokens ≥ n

/-- Take tokens for n sectors (R248). -/
def spend (s : State) (d n : Nat) : State :=
  if throttle s d = 0 then s else setD s d { getD s d with tokens := (getD s d).tokens - n }

/-- Where a stack offset lies: pseudo-channel, bank, row, column and sector (R238, `stack_map`). -/
structure StackPlace where
  pc : Nat
  bank : Nat
  row : Nat
  col : Nat
  sector : Nat
deriving DecidableEq, Repr

/-- `stack_map` of R238. -/
def stackMap (o : Nat) : StackPlace :=
  let ln := o / 128
  { pc := (ln ^^^ (ln / 256) ^^^ (ln / 65536)) % 32, bank := ln / 256 % 16, row := ln / 4096, col := ln / 32 % 8, sector := o / 32 % 4 }

/-- The errors of one place that a command's operand lists for a sector. -/
def errsAt (errs : List SymErr) (p : ErrAt) (sec : Nat) : List SymErr :=
  errs.filter (fun e => e.place == p && e.sector.val == sec)

/-- The die that holds the most of the listed symbols (R430). -/
def worstDie (syms : List Nat) : Nat :=
  (List.range 10).foldl (fun b i =>
    if (syms.filter (fun p => symDie p == i)).length > (syms.filter (fun p => symDie p == b)).length then i else b) 0

/-- Corrections are reported at most once per stack per 12,500 ticks, with the events and symbols since the last record
(R244). -/
def noteCorr (s : State) (d syms : Nat) : State :=
  let D := getD s d
  let due := D.corrMark = 0 ∨ s.now ≥ D.corrMark - 1 + 12500
  let ev := D.corrSince + 1
  let sy := D.corrSyms + syms
  if due then postErr (setD s d { D with corrMark := s.now + 1, corrSince := 0, corrSyms := 0 }) d 0 0x0201 d 0 (toLE 4 sy) 0 ev
  else setD s d { D with corrSince := ev, corrSyms := sy }

/-- Symbols that the decoder has corrected: they are counted, and a die that reaches THRESH within the pass is marked
unless two are (R242, R244, R251). -/
def noteSyms (s : State) (d : Nat) (fix : List Nat) : State :=
  let D := getD s d
  let mark := wfld D.dcDiemark 9 0
  let pc := (List.range 10).map (fun i => D.passCorr.getD i 0 + (fix.filter (fun p => symDie p == i)).length)
  let th := wfld D.dcDiemark 31 24
  let s := setD s d { D with dcEcc := wset D.dcEcc 31 0 (wfld D.dcEcc 31 0 + fix.length), passCorr := pc }
  (List.range 10).foldl (fun s i =>
    if th ≠ 0 ∧ D.passCorr.getD i 0 < th ∧ pc.getD i 0 ≥ th ∧ !(mark.testBit i) then
      let E := getD s d
      let m := wfld E.dcDiemark 9 0
      let m' := if popc 10 m ≥ 2 then m else m ||| 2 ^ i
      let s := setD s d { E with dcDiemark := wset E.dcDiemark 9 0 m' }
      postErr s d 0 0x0202 d 0 (toLE 1 i ++ toLE 2 m')
    else s) s

/-- An uncorrectable sector of the stack is counted and poisoned (R241, R251). -/
def uncorrSector (s : State) (d k : Nat) : State :=
  let D := getD s d
  { setD s d { D with dcEcc := wset D.dcEcc 63 48 (wfld D.dcEcc 63 48 + 1) } with mpoison := sIns s.mpoison k }

/-- How the sector at module address a, stack offset off, is taken up when it is read from the stack: decoded, counted,
reported and, where it is corrected, written back with the token of a write while `back` says that it is (R240 to R242,
R244, R245, R248). The sectors of a line are handled one after another (assumption 128); an error found again before the
write-back is escalated (R433). -/
def takeSector (s : State) (d a off : Nat) (errs : List SymErr) (back : Bool) : State :=
  let k := a / 32
  let sec := (stackMap off).sector
  let D := getD s d
  let s := setD s d { D with dcEcc := wset D.dcEcc 47 32 (wfld D.dcEcc 47 32 + (errsAt errs .inner sec).length) }
  let esc := !(errsAt errs .again sec).isEmpty
  let pois := s.mpoison.contains k
  let ev := (List.range 20).map (fun i =>
    ((errsAt errs .bond sec).filter (fun e => e.sym.val == i)).foldl (fun v e => v ^^^ e.val.toNat) 0)
  let v := if pois then xorVec ev markerVec else ev
  match decodeSector v (wfld D.dcDiemark 9 0) with
  | .good => { s with mpoison := sDel s.mpoison k }
  | .poisoned => { s with mpoison := sIns s.mpoison k }
  | .uncorrectable =>
    let s := uncorrSector s d k
    if esc then domainFence s d 2 (fatalRecord d 0x0203 off)
    else postErr s d 1 0x0203 d off (toLE 1 (worstDie ((List.range 20).filter (fun i => ev.getD i 0 != 0))))
  | .corrected fix =>
    -- the bytes the decoder delivers: the stored word with the fix removed
    let s := (List.range 16).foldl (fun s i =>
      let x := v.getD (i + 4) 0 ^^^ ((fix.find? (fun iv => iv.1 == i + 4)).map (·.2)).getD 0
      if x = 0 then s
      else { s with mem := stWriteLE s.mem (k * 32 + 2 * i) 2 (stReadLE s.mem (k * 32 + 2 * i) 2 ^^^ x) }) s
    let s := { s with mpoison := sDel s.mpoison k }
    let s := noteSyms s d (fix.map (·.1))
    let s := if back then spend s d 1 else s
    if esc then
      -- escalated to deferred: delivered and written back poisoned (R433)
      postErr (uncorrSector s d k) d 1 0x0203 d off (toLE 1 (worstDie (fix.map (·.1)))) 1
    else noteCorr s d fix.length

/-- Read sectors of a line from the stack in ascending order. -/
def takeSectors (s : State) (d lineA lineOff : Nat) (errs : List SymErr) (secs : List Nat) : State :=
  secs.foldl (fun s i => takeSector s d (lineA + 32 * i) (lineOff + 32 * i) errs true) s

/-- The record of an uncorrectable stack-cache word: its sector at stack offset off; which stack die holds the failing
symbols has no meaning there, and the byte is free (R244, R430; assumption 129). -/
def sramRecord (s : State) (d off : Nat) : State :=
  postErr { s with draws := s.draws + 1 } d 1 0x0203 d off (toLE 1 (Config.freeValue s.draws).toNat)

/-- The stack cache's SRAM words of some sectors of a line are read: a word with one bit wrong is corrected and counted, an
uncorrectable word poisons its sector, once (R218, R232, R244). -/
def readWords (s : State) (d lineA lineOff : Nat) (errs : List SymErr) (secs : List Nat) : State :=
  secs.foldl (fun s i =>
    let k := (lineA + 32 * i) / 32
    let s := (errsAt errs .word i).foldl (fun s _ => noteCorr s d 0) s
    if (errsAt errs .badWord i).isEmpty ∨ s.mpoison.contains k then s
    else sramRecord { s with mpoison := sIns s.mpoison k } d (lineOff + 32 * i)) s

/-- The stack offset of a line that the stack cache of die d holds; where the Chart gives it none any more, the name that
patrol uses. -/
def lineOffset (s : State) (line : Nat) : Nat := ((homeOf s (128 * line)).map (·.2)).getD (128 * line % 2 ^ 36)

/-- An eviction reads the words of the line's dirty sectors: a sector with an uncorrectable word is written back with the
marker, and a deferred record is posted (R250). -/
def evictWords (s : State) (d : Nat) (v : Option SLine) (errs : List SymErr) : State :=
  match v with
  | none => s
  | some l =>
    (List.range 4).foldl (fun s i =>
      if l.dirty.getD i false && !(errsAt errs .victim i).isEmpty && !s.mpoison.contains (4 * l.line + i) then
        sramRecord { s with mpoison := sIns s.mpoison (4 * l.line + i) } d (lineOffset s l.line + 32 * i)
      else s) s

/-- KEEP lines of a set other than the one named (R234). -/
def keepCount (ls : List SLine) (line : Nat) : Nat := (ls.filter (fun l => l.cls == .keep && l.line != line)).length

/-- The line to evict from a full set, least recently used last: NORMAL, then DISCARD, then KEEP (R234). -/
def victim (ls : List SLine) : Option SLine :=
  let last := fun (c : SClass) => (ls.filter (fun l => l.cls == c)).getLast?
  match last .normal with
  | some l => some l
  | none => match last .discard with
    | some l => some l
    | none => last .keep

/-- What a request asks of the stack cache. -/
inductive ScKind where
  /-- Read of some sectors. -/
  | read
  /-- Write of some sectors; the ones listed are written whole. -/
  | write (whole : List Nat)
deriving DecidableEq, Repr

/-- The outcome of a request at the stack cache: waits for tokens, or performed with the sectors dropped. -/
inductive ScRes where
  | wait
  | done (s : State) (dropped : List Nat)

/-- Four flags with some set. -/
def flag4 (l : List Bool) (on : List Nat) (v : Bool) : List Bool :=
  (List.range 4).map (fun i => if on.contains i then v else l.getD i false)

/-- A request at the home stack cache of die d for sectors `secs` of the line at module address lineA, stack offset
lineOff, under its hint (R233 to R235); `w` tells that its segment grants W (R236). -/
def scRequest (s : State) (d lineA lineOff : Nat) (secs : List Nat) (k : ScKind) (hint : Nat) (w : Bool)
    (errs : List SymErr) : ScRes :=
  let D := getD s d
  let set := (lineOff / 128) % 16384
  let ls := mget D.sc [] set
  let line := lineA / 128
  let isRead : Bool := match k with | .read => true | .write _ => false
  let whole := match k with | .read => [] | .write l => l
  let h := if isRead ∧ hint = 3 ∧ !w then 1 else hint
  match ls.find? (fun l => l.line == line) with
  | some l =>
    let drop := isRead && h == 3 && l.cls == .discard
    let h := if isRead ∧ h = 3 ∧ !drop then 1 else h
    let need := secs.filter (fun i => !(l.valid.getD i false) && !(whole.contains i))
    if !tokensFor s d need.length then .wait
    else
      let held := secs.filter (fun i => l.valid.getD i false && !(whole.contains i))
      let s := readWords (takeSectors (spend s d need.length) d lineA lineOff errs need) d lineA lineOff errs held
      let D := getD s d
      let ls := mget D.sc [] set
      let others := ls.filter (fun l => l.line != line)
      if drop then
        let gone := secs.filter (fun i => l.valid.getD i false)
        let l' := { l with valid := flag4 l.valid secs false, dirty := flag4 l.dirty secs false }
        let ls' := if l'.valid.any id then ls.map (fun x => if x.line == line then l' else x) else others
        let D := { D with sc := mset D.sc set ls', drops := D.drops + BitVec.ofNat 32 gone.length }
        .done (setD s d D) gone
      else
        let cls := match h with
          | 0 => if l.cls = .discard then .normal else l.cls
          | 2 => if keepCount ls line ≥ 12 then .normal else .keep
          | 3 => .discard
          | _ => l.cls
        let fill := if h = 1 ∧ isRead then [] else secs
        let l' := { l with cls := cls, valid := flag4 l.valid fill true
                           dirty := if isRead then l.dirty else flag4 l.dirty secs true }
        let ls' := if h = 1 ∧ isRead then ls.map (fun x => if x.line == line then l' else x) else l' :: others
        .done (setD s d { D with sc := mset D.sc set ls' }) []
  | none =>
    let alloc := if isRead then h == 0 || h == 2 else h != 1
    if !alloc then
      let need := if isRead then secs else secs.filter (fun i => !(whole.contains i))
      let cost := if isRead then secs.length else secs.length + need.length
      if !tokensFor s d cost then .wait
      else .done (takeSectors (spend s d cost) d lineA lineOff errs need) []
    else
      let need := if isRead then [0, 1, 2, 3] else secs.filter (fun i => !(whole.contains i))
      let vic := if ls.length ≥ 16 then victim ls else none
      let back := match vic with | some v => (v.dirty.filter id).length | none => 0
      if !tokensFor s d (need.length + back) then .wait
      else
        let s := takeSectors (evictWords (spend s d (need.length + back)) d vic errs) d lineA lineOff errs need
        let D := getD s d
        let ls := (mget D.sc [] set).filter (fun l => match vic with | some v => l.line != v.line | none => true)
        let cls := match h with
          | 2 => if keepCount ls line ≥ 12 then SClass.normal else .keep
          | 3 => .discard
          | _ => .normal
        let l := { line := line, cls := cls
                   valid := flag4 [] (if isRead then [0, 1, 2, 3] else secs) true
                   dirty := flag4 [] (if isRead then [] else secs) true : SLine }
        .done (setD s d { D with sc := mset D.sc set (l :: ls) }) []

/-- SC_STAT.KEEP_LINES (R251). -/
def keepLines (D : CDieSt) : Nat :=
  D.sc.foldl (fun n p => n + (p.2.filter (fun l => l.cls == .keep)).length) 0

/-- Sectors of a line that n bytes at a touch. -/
def lineSecs (a n : Nat) : List Nat := (sectorsOf a n).map (fun k => k % 4)

/-- Read n bytes of one line at their home: bytes and poison, dropped bytes becoming unpredictable afterwards
(R234, R243); none while the request waits for tokens. -/
def homeRead (s : State) (d off a n hint : Nat) (w : Bool) (errs : List SymErr) : Option (List Byte × Bool × State) :=
  match scRequest s d (a / 128 * 128) (off / 128 * 128) (lineSecs a n) .read hint w errs with
  | .wait => none
  | .done s dropped =>
    let bs := stReadN s.mem a n
    let p := memPoisoned s a n
    let s := dropped.foldl (fun s i =>
      { s with mem := stFreeN s.mem s.draws (a / 128 * 128 + 32 * i) 32, draws := s.draws + 1 }) s
    some (bs, p, s)

/-- Write masked bytes of one line at their home; `pois` lists sectors of the line that arrive poisoned. -/
def homeWrite (s : State) (d off a : Nat) (bs : List (Option Byte)) (hint : Nat) (pois : List Nat)
    (errs : List SymErr) : Option State :=
  let at_ := fun (i : Nat) => if i < a then none else (bs[i - a]?).join
  let line := a / 128 * 128
  let touched := (List.range 4).filter (fun i => (List.range 32).any (fun b => (at_ (line + 32 * i + b)).isSome))
  let whole := (List.range 4).filter (fun i => (List.range 32).all (fun b => (at_ (line + 32 * i + b)).isSome))
  match scRequest s d line (off / 128 * 128) touched (.write whole) hint true errs with
  | .wait => none
  | .done s _ =>
    some (touched.foldl (fun s i =>
      memWriteSector s (line + 32 * i) ((List.range 32).map (fun b => at_ (line + 32 * i + b))) (pois.contains i)) s)

end Machine
end Sys2Proof
end

