-- ==== Sys2Proof/Machine/TileCache.lean ====
section
/-!
DEFINITION. The memory side of a tile: L1D, L1I and tile cache (R220 to R223), the merge buffer (R224 to R226), and
how a scalar or vector access is served from them (R221, R222, R140).
-/

namespace Sys2Proof
namespace Machine

/-! Caches: sectors are named by number, address / 32 -/

/-- Sets of the tile cache: (2 MiB - L) / 1 KiB (R216). -/
def tcSets (T : Tile) : Nat := (0x200000 - T.lsBytes) / 1024

/-- An empty line. -/
def lineNew (line : Nat) : CLine := { line := line, data := [none, none, none, none], poison := [false, false, false, false] }

/-- The valid copy of a sector, with its poison bit. -/
def cacheLook (m : Cache) (sets sec : Nat) : Option (List Byte × Bool) :=
  if sets = 0 then none
  else
    let line := sec / 4
    match (mget m [] (line % sets)).find? (fun l => l.line == line) with
    | some l => match l.data.getD (sec % 4) none with
      | some b => some (b, l.poison.getD (sec % 4) false)
      | none => none
    | none => none

/-- Install a sector: its line becomes the most recently used, and the least recently used line of a full set
leaves (R220). -/
def cacheFill1 (m : Cache) (sets ways sec : Nat) (b : List Byte) (pois : Bool) : Cache :=
  if sets = 0 then m
  else
    let line := sec / 4
    let ls := mget m [] (line % sets)
    let l := (ls.find? (fun l => l.line == line)).getD (lineNew line)
    let l := { l with data := l.data.set (sec % 4) (some b), poison := l.poison.set (sec % 4) pois }
    mset m (line % sets) ((l :: ls.filter (fun x => x.line != line)).take ways)

/-- Make a sector's line the most recently used. -/
def cacheTouch (m : Cache) (sets sec : Nat) : Cache :=
  if sets = 0 then m
  else
    let line := sec / 4
    let ls := mget m [] (line % sets)
    match ls.find? (fun l => l.line == line) with
    | some l => mset m (line % sets) (l :: ls.filter (fun x => x.line != line))
    | none => m

/-- Remove a sector's copy. -/
def cacheDrop (m : Cache) (sets sec : Nat) : Cache :=
  if sets = 0 then m
  else
    let line := sec / 4
    mset m (line % sets) ((mget m [] (line % sets)).map (fun l =>
      if l.line == line then { l with data := l.data.set (sec % 4) none, poison := l.poison.set (sec % 4) false } else l))

/-- Update a valid copy with masked bytes of its sector; a whole write clears its poison bit (R225, R243). -/
def cacheUpd (m : Cache) (sets sec : Nat) (bs : List (Option Byte)) : Cache :=
  match cacheLook m sets sec with
  | none => m
  | some (old, p) =>
    let new := (List.range 32).map (fun i => ((bs[i]?).join).getD (old.getD i 0#8))
    let p' := p && !(bs.length == 32 && bs.all Option.isSome)
    let line := sec / 4
    mset m (line % sets) ((mget m [] (line % sets)).map (fun l =>
      if l.line == line then { l with data := l.data.set (sec % 4) (some new), poison := l.poison.set (sec % 4) p' } else l))

/-- Remove every sector whose bytes meet [lo, hi). -/
def cacheInvRange (m : Cache) (lo hi : Nat) : Cache :=
  m.map (fun p => (p.1, p.2.map (fun l =>
    { l with data := (List.range 4).map (fun i =>
        let a := l.line * 128 + 32 * i
        if a < hi && lo < a + 32 then none else l.data.getD i none) })))

/-- Remove every line that meets [lo, hi). -/
def cacheInvLines (m : Cache) (lo hi : Nat) : Cache :=
  m.map (fun p => (p.1, p.2.filter (fun l => !(l.line * 128 < hi && lo < l.line * 128 + 128))))

/-- Transactions of the vector loads on their way (R139): one for each unit-stride group and one for each strided or
indexed element that still misses bytes. -/
def laneLoadTxns (T : Tile) : Nat :=
  T.lane.foldl (fun n e => match e.ins with
    | .vload _ _ _ _ _ _ mode =>
      let out := (e.pieces.filter (fun p => !(p.bytes.all Option.isSome))).map (fun p => p.elem)
      n + (if mode = .unit then (out.map (fun i => i / (if e.tg then 16 else 128 / 2 ^ e.sew))).eraseDups.length else out.length)
    | _ => n) 0

/-- Transactions the tile has outstanding (R30): reads and atomics, the vector accesses as R139 counts them, writes from
the start of their drain, and the tile DMA engine's. -/
def outstanding (T : Tile) : Nat :=
  (T.reads.filter (fun r => r.atomic.isSome || (match r.owner with | .lane _ => false | _ => true))).length + laneLoadTxns T
    + T.writes.foldl (fun n w => n + w.txns) 0
    + ((T.writes.filter (fun w => w.txns == 0)).map (fun w => (w.seq, w.lane.map (fun p => p.2 % 16)))).eraseDups.length
    + (T.mb.filter (fun e => e.draining)).length + T.dmaReqs

/-! Merge buffer (R224, R225) -/

/-- Two entries hold, under their masks, some byte in common. -/
def mbShare (e f : MBEnt) : Bool :=
  (List.range e.bytes.length).any (fun i => ((e.bytes[i]?).join).isSome && f.addr ≤ e.addr + i
    && ((f.bytes[e.addr + i - f.addr]?).join).isSome)

/-- The open entries that commit where a test selects some: those, and older open ones that hold a byte of them, so that
the writes of one byte stay in program order (R225, R227; assumption 115). -/
def mbChosen (p : MBEnt → Bool) (mb : List MBEnt) : List MBEnt :=
  mb.foldr (fun e acc => if e.cseq = 0 ∧ (p e ∨ acc.any (fun x => mbShare x e)) then e :: acc else acc) []

/-- Commit the open entries of a list that a test selects, in allocation order (R225). -/
def mbCommit (T : Tile) (p : MBEnt → Bool) : Tile :=
  let ch := (mbChosen p T.mb).map (fun e => e.seq)
  let r := T.mb.foldl (fun (acc : List MBEnt × Nat) e =>
    if e.cseq = 0 ∧ ch.contains e.seq then (acc.1 ++ [{ e with cseq := acc.2 + 1 }], acc.2 + 1)
    else (acc.1 ++ [e], acc.2)) ([], T.seq)
  { T with mb := r.1, seq := r.2 }

/-- Commit the oldest open entry. -/
def mbCommitOldest (T : Tile) : Tile :=
  match T.mb.find? (fun e => e.cseq == 0) with
  | some o => mbCommit T (fun e => e.seq == o.seq)
  | none => T

/-- The entry touches bytes [a, a + n). -/
def mbTouches (e : MBEnt) (a n : Nat) : Bool := e.addr < a + n && a < e.addr + e.bytes.length

/-- The entry holds, under its mask, some byte of [a, a + n). -/
def mbHolds (e : MBEnt) (a n : Nat) : Bool :=
  (List.range n).any (fun i => e.addr ≤ a + i && ((e.bytes[a + i - e.addr]?).join).isSome)

/-- Masked bytes of one sector merged over others. -/
def mergeBytes (old new : List (Option Byte)) : List (Option Byte) :=
  (List.range 32).map (fun i => match (new[i]?).join with | some b => some b | none => (old[i]?).join)

/-- The open entry of a sector and hint that a store merges into, of a buffer listed youngest first: none where a younger
entry holds one of its bytes, whose write would then come before the store's at the point of coherence (R224, R227;
assumption 115). -/
def mbTarget (sec : Nat) (bs : List (Option Byte)) (hint : Nat) : List MBEnt → Option MBEnt
  | [] => none
  | e :: r =>
    if e.cseq = 0 ∧ e.addr = sec * 32 ∧ e.hint = hint then some e
    else if (List.range bs.length).any (fun i => ((bs[i]?).join).isSome && mbHolds e (sec * 32 + i) 1) then none
    else mbTarget sec bs hint r

/-- An entry takes a place in the buffer; it commits at once where `now` says so, and the oldest open entry commits in
the same cycle where the allocation leaves 12 entries taken; entries that commit in one cycle keep allocation order
(R225). -/
def mbAlloc (T : Tile) (e : MBEnt) (now : MBEnt → Bool) : Tile :=
  let T := { T with mb := T.mb ++ [e], seq := T.seq + 1 }
  let oldest := if T.mb.length = 12 then T.mb.find? (fun x => x.cseq == 0) else none
  mbCommit T (fun x => now x || oldest.any (fun o => o.seq == x.seq))

/-- A store's bytes for one sector enter the buffer: they merge into an open entry of the same sector and hint, or
take a free entry; none when no entry is free (R224). -/
def mbEnter (T : Tile) (sec : Nat) (bs : List (Option Byte)) (hint : Nat) (who : StoreBy) : Option Tile :=
  match mbTarget sec bs hint T.mb.reverse with
  | some o =>
    let T := { T with mb := T.mb.map (fun e =>
      if e.seq = o.seq then { e with bytes := mergeBytes e.bytes bs, who := e.who ++ [who] } else e) }
    some (mbCommit T (fun e => e.seq == o.seq && e.bytes.all Option.isSome))
  | none =>
    if T.mb.length ≥ 16 then none
    else
      let e : MBEnt := { seq := T.seq + 1, addr := sec * 32, bytes := mergeBytes [] bs, hint := hint, cseq := 0
                         draining := false, dzl := false, who := [who] }
      some (mbAlloc T e (fun x => x.seq == e.seq && x.bytes.all Option.isSome))

/-- The bytes of a store within one sector, as a mask over the sector. -/
def sectorPart (a : Nat) (bs : List Byte) (sec : Nat) : List (Option Byte) :=
  (List.range 32).map (fun i =>
    let p := sec * 32 + i
    if a ≤ p ∧ p < a + bs.length then bs[p - a]? else none)

/-! Serving an access (R221, R222) -/

/-- An address is cacheable: module memory, here or on another module (R77, 09 opening). -/
def cacheable (a : Nat) : Bool := a % 2 ^ 48 < 0x10000000000

/-- Fill the bytes of a piece that lie in a sector; poison gives the piece POISON (R243), and a failed request of n bytes
at a its fault. -/
def pieceFill (p : Piece) (a : Nat) (bs : List Byte) (pois : Bool) (code : Nat) (n : Nat := 32) : Piece :=
  let hit := p.addr < a + bs.length && a < p.addr + p.n
  if code ≠ 0 then
    if p.addr < a + n && a < p.addr + p.n then
      { p with code := code, bytes := p.bytes.map (fun b => some (b.getD 0#8)) } else p
  else if !hit then p
  else
    { p with
      bytes := (List.range p.n).map (fun i =>
        match (p.bytes[i]?).join with
        | some b => some b
        | none => if a ≤ p.addr + i ∧ p.addr + i < a + bs.length then bs[p.addr + i - a]? else none)
      code := if pois && p.code == 0 then 0x10 else p.code }

/-- The whole piece has its bytes. -/
def pieceDone (p : Piece) : Bool := p.bytes.all Option.isSome

/-- Sectors in which a piece still misses bytes. -/
def pieceNeeds (p : Piece) : List Nat :=
  ((List.range p.n).filterMap (fun i =>
    if ((p.bytes[i]?).join).isNone then some ((p.addr + i) / 32) else none)).eraseDups

/-- Add an outstanding read of one sector: the fill of each level is the youngest request's, so that no fill replaces a
newer copy by an older one (R170, R173). -/
def addRead (T : Tile) (owner : ReadFor) (addr n hint : Nat) (w l1d l1i tc : Bool) : Tile :=
  let old := T.reads.map (fun r => if r.addr = addr ∧ r.atomic.isNone then
    { r with l1d := r.l1d && !l1d, l1i := r.l1i && !l1i, tc := r.tc && !tc } else r)
  let r : ReadReq := { seq := T.seq + 1, owner := owner, addr := addr, n := n, hint := hint, w := w, atomic := none
                       l1d := l1d, l1i := l1i, tc := tc, answer := none, stale := false, elem := none }
  { T with seq := T.seq + 1, reads := old ++ [r] }

/-- Prefetches of the line after A: each sector not valid in the L1D (or, without one, in the tile cache, if there is
one) is taken from the tile cache or requested, unless a request that fills that level is outstanding (R222). `ok` holds
the conditions on segment, mapping and fence. Deterministic mode prefetches nothing. -/
def prefetch (T : Tile) (line hint : Nat) (w useL1 ok : Bool) : Tile :=
  if !ok || T.det || outstanding T ≥ 224 || (!useL1 && tcSets T == 0) then T
  else
    let h := if hint % 2 = 1 then 1 else hint
    (List.range 4).foldl (fun (T : Tile) i =>
      let sec := (line + 1) * 4 + i
      if useL1 && (cacheLook T.l1d 64 sec).isSome then T
      else match cacheLook T.tc (tcSets T) sec with
        | some (b, p) => if useL1 then { T with l1d := cacheFill1 T.l1d 64 4 sec b p } else T
        | none =>
          if T.reads.any (fun r => r.addr == sec * 32 && r.atomic.isNone && !r.stale && (if useL1 then r.l1d else r.tc)) then T
          else addRead T (.prefetch useL1) (sec * 32) 32 h w useL1 false true) T

/-- An earlier load of the same context has a request for the sector on its way: a later load of the sector is not
served from a copy that may be older than what that request brings (R170, R173). -/
def ownRequest (T : Tile) (owner : ReadFor) (sec : Nat) : Bool :=
  match owner with
  | .load c _ => T.reads.any (fun r => r.addr == sec * 32 && (match r.owner with | .load d _ => d == c | _ => false))
  | _ => false

/-- Serve one sector of a piece: L1D, then tile cache, then a request to the home (R221). -/
def serveSector (T : Tile) (owner : ReadFor) (p : Piece) (sec hint : Nat) (w useL1 pre : Bool) : Tile × Piece :=
  if ownRequest T owner sec then (addRead T owner (sec * 32) 32 hint w useL1 false true, p)
  else
  match (if useL1 then cacheLook T.l1d 64 sec else none) with
  | some (b, q) => ({ T with l1d := cacheTouch T.l1d 64 sec }, pieceFill p (sec * 32) b q 0)
  | none =>
    match cacheLook T.tc (tcSets T) sec with
    | some (b, q) =>
      let T := { T with tc := cacheTouch T.tc (tcSets T) sec
                        l1d := if useL1 then cacheFill1 T.l1d 64 4 sec b q else T.l1d }
      (if useL1 then prefetch T (sec / 4) hint w true pre else T, pieceFill p (sec * 32) b q 0)
    | none =>
      let T := addRead T owner (sec * 32) 32 hint w useL1 false true
      (prefetch (prefetch T (sec / 4) hint w useL1 pre) (sec / 4) hint w false pre, p)

/-- Serve a piece: cacheable sectors one by one; anything else by one request of its own bytes (R221, R77). -/
def servePiece (T : Tile) (owner : ReadFor) (p : Piece) (hint : Nat) (w useL1 : Bool) (pre : Nat → Bool) : Tile × Piece :=
  if pieceDone p then (T, p)
  else if cacheable p.addr then
    (pieceNeeds p).foldl (fun (a : Tile × Piece) sec => serveSector a.1 owner a.2 sec hint w useL1 (pre (sec / 4))) (T, p)
  else (addRead T owner p.addr p.n hint w false false false, p)

/-- Serve the pieces of an access in order. -/
def servePieces (T : Tile) (owner : ReadFor) (ps : List Piece) (hint : Nat) (w useL1 : Bool) (pre : Nat → Bool) :
    Tile × List Piece :=
  ps.foldl (fun (a : Tile × List Piece) p =>
    let r := servePiece a.1 owner p hint w useL1 pre
    (r.1, a.2 ++ [r.2])) (T, [])

/-- The prefetch conditions on line A + 128 that need the segment and the map (R222). -/
def prefetchOk (s : State) (C : Ctx) (seg : SegId) (line : Nat) : Bool :=
  let a := (line + 1) * 128
  let base := wfld C.sega[seg] 47 0
  let lim := wfld C.segl[seg] 47 0
  let m := a % 2 ^ 48
  cacheable a && permOk C.sega[seg] 1 && base ≤ m && m + 128 ≤ base + lim &&
    (if isRemote s C seg then true
     else match placeOf s m with
       | .mem d _ => !(fenced s d)
       | _ => false)

/-- Bytes of open merge-buffer entries forwarded to a piece, the youngest entry last (R226). -/
def forward (T : Tile) (p : Piece) : Piece :=
  (T.mb.filter (fun e => e.cseq == 0)).foldl (fun (p : Piece) e =>
    { p with bytes := (List.range p.n).map (fun i =>
        let at_ := p.addr + i
        if e.addr ≤ at_ then
          match (e.bytes[at_ - e.addr]?).join with
          | some b => some b
          | none => (p.bytes[i]?).join
        else (p.bytes[i]?).join) }) p

/-- Committed entries that hold a byte of the pieces (R226). -/
def mbWaits (T : Tile) (ps : List Piece) : List Nat :=
  (T.mb.filter (fun e => e.cseq != 0 && ps.any (fun p => mbHolds e p.addr p.n))).map (fun e => e.seq)

/-- An empty piece. -/
def pieceNew (addr n elem : Nat) : Piece :=
  { addr := addr, n := n, bytes := List.replicate n none, code := 0, elem := elem }

/-- TL_SEGHINT field of a segment (R236). -/
def hintOf (C : Ctx) (seg : SegId) : Nat := wfld C.seghint (2 * seg.val + 1) (2 * seg.val)

/-- Invalidate a tile's copies of the sectors that n bytes at a touch, in the L1D and tile cache (R223). -/
def dropCopies (T : Tile) (a n : Nat) : Tile :=
  (sectorsOf a n).foldl (fun (T : Tile) k =>
    { T with l1d := cacheDrop T.l1d 64 k, tc := cacheDrop T.tc (tcSets T) k }) T

/-- Fills still on their way for the sectors of [a, a + n) are delivered and installed nowhere (R231). -/
def staleReads (T : Tile) (a n : Nat) : Tile :=
  { T with reads := T.reads.map (fun r => if r.addr < a + n && a < r.addr + r.n then { r with stale := true } else r) }

/-- Remove the copies of a range, which may wrap at 2^48, and let no fill of its lines that is on its way install (R171,
R231). -/
def dropRange (T : Tile) (lo len : Nat) : Tile :=
  let one := fun (T : Tile) (a b : Nat) =>
    if a < b then staleReads { T with l1d := cacheInvRange T.l1d a b, tc := cacheInvLines T.tc a b }
        (a / 128 * 128) ((b + 127) / 128 * 128 - a / 128 * 128) else T
  let top := lo / 2 ^ 48 * 2 ^ 48
  let T := one T lo (min (lo + len) (top + 2 ^ 48))
  if lo + len > top + 2 ^ 48 then one T top (lo + len - 2 ^ 48) else T

/-- Forced synchronisation: drop the L1I sectors written, and let no fetch of them still on its way fill the L1I (R91,
R93). -/
def forcedSync (T : Tile) (a n : Nat) : Tile :=
  (sectorsOf a n).foldl (fun (T : Tile) k =>
    { T with l1i := cacheDrop T.l1i 64 k
             reads := T.reads.map (fun r => if r.addr / 32 = k then { r with l1i := false } else r) }) T

/-- An atomic that its context has issued and that has not been sent to its point of coherence. -/
def atomicUnsent (T : Tile) (c : Nat) (l : LoadEnt) : Bool :=
  (match l.kind with | .amo .. => true | .cas .. => true | _ => false)
    && l.data.isNone && l.fault.isNone && !(T.reads.any (fun r => r.owner == .load c l.seq))

/-- The pieces of two accesses have a byte in common. -/
def piecesMeet (ps qs : List Piece) : Bool :=
  ps.any (fun p => qs.any (fun q => p.addr < q.addr + q.n && q.addr < p.addr + p.n))

/-- An access of the context, earlier than number `seq`, that has issued and still waits to be served, and that has a
byte in common with the pieces: an access behind it waits (R170, R172). -/
def heldBack (T : Tile) (c : CtxId) (seq : Nat) (ps : List Piece) : Bool :=
  T.ctx[c].loads.any (fun l => decide (l.seq < seq) && l.kind != .sched && l.data.isNone && l.fault.isNone
    && !(l.pieces.all pieceDone) && !(T.reads.any (fun r => r.owner == .load c.val l.seq)) && piecesMeet l.pieces ps)

/-- Bytes of a sector that the tile's own stores or atomics are still to change: entries of the merge buffer, and atomics
not yet sent. A fetch of the sector waits for them, so that the instructions after a store into the own code range are
the new ones (R91). -/
def codePending (T : Tile) (a n : Nat) : Bool :=
  T.mb.any (fun e => mbTouches e a n)
    || T.ctx.toList.zipIdx.any (fun x => x.1.loads.any (fun l => atomicUnsent T x.2 l && piecesMeet l.pieces
        [{ addr := a, n := n, bytes := [], code := 0, elem := 0 }]))

/-- The address lies in the context's own code range (R91). -/
def inOwnCode (C : Ctx) (a n : Nat) : Bool :=
  let base := wfld C.sega[(0 : SegId)] 47 0
  let lim := wfld C.segl[(0 : SegId)] 47 0
  (List.range n).any (fun i => (a + i + 2 ^ 48 - base) % 2 ^ 48 < lim)

/-- Synchronise after a store of n bytes through a segment at offset o, where the address lies in the own code range:
through any segment, through seg6 where MODULE is the own ID, and through seg3 by the window address (R91). -/
def syncAfter (s : State) (t : Nat) (C : Ctx) (seg : SegId) (o n : Nat) : State :=
  if isRemote s C seg then s
  else
    let a := if seg = 3 then 0x10000000000 + t * 0x200000 + segAddr C seg o else segAddr C seg o
    if inOwnCode C a n then modT s t (fun T => forcedSync T a n) else s

end Machine
end Sys2Proof
end

