-- ==== Sys2Proof/Machine/Entry.lean ====
section
/-!
DEFINITION. Entries: faults, traps, interrupts and `scall` (R105 to R119), the load shadows and mode-write shadows
they capture (R81, R94, R113, R115), the thread-group path (R156) and parking (R164), and the tile reset of a third
fault (R118). Taking an entry is one operation, `raiseEntry`, completed by `tryEnter` once the context's accesses have
responded.
-/

namespace Sys2Proof
namespace Machine

/-! Shadows -/

/-- Writes whose shadow has ended take effect in program order; one waits behind an earlier write of the same register
whose shadow has ended too. A faulting response whose shadow has ended becomes due (R81, R109, R114). -/
def retire (C : Ctx) : Ctx :=
  C.loads.foldl (fun (A : Ctx) l =>
    if l.shadow = 0 ∧ l.fault.isSome then
      { A with rfaults := A.rfaults ++ l.fault.toList }
    else match l.data with
      | some v =>
        if l.shadow = 0 ∧ A.loads.all (fun k => k.rd != l.rd || k.shadow != 0) then
          xset A (Fin.ofNat 32 l.rd) v
        else { A with loads := A.loads ++ [l] }
      | none => { A with loads := A.loads ++ [l] }) { C with loads := [] }

/-- One mode write takes effect (R94): RSTRAP, TL_SEGA(0) or TL_SEGL(0). -/
def applyMode (C : Ctx) (m : ModeWrite) : Ctx :=
  match m.which with
  | 0 => { C with rstrap := m.val.toNat.testBit 0 }
  | 1 => { C with sega := C.sega.set 0 m.val }
  | _ => { C with segl := C.segl.set 0 m.val }

/-- Mode writes in force take effect in program order (R94, R115). -/
def applyModes (C : Ctx) (p : ModeWrite → Bool) : Ctx :=
  let C' := (C.modeWrites.filter p).foldl applyMode C
  { C' with modeWrites := C.modeWrites.filter (fun m => !p m) }

/-- One instruction has completed: shadows count down, and what they held back takes effect (R81, R94). -/
def countDown (C : Ctx) : Ctx :=
  let C := { C with loads := C.loads.map (fun l => { l with shadow := l.shadow - 1 })
                    modeWrites := C.modeWrites.map (fun m => { m with remain := m.remain - 1 }) }
  applyModes (retire C) (fun m => m.remain == 0)

/-! Thread groups -/

/-- The context runs as a group and is not parked (R151, R164). -/
def inGroup (C : Ctx) : Bool := C.tgctl.toNat.testBit 0 && !C.tgctl.toNat.testBit 1

/-- PC of thread i (R151). -/
def threadPc (C : Ctx) (i : Nat) : Nat := mget C.tpc 0 i

/-- Set the PCs of the threads of a mask (R153). -/
def setThreads (C : Ctx) (m : BitVec 128) (f : Nat → Nat) : Ctx :=
  { C with tpc := (List.range 128).map (fun i => (i, if m.getLsbD i then f i else threadPc C i)) }

/-- Select the running path: the live threads at the lowest PC that has not yielded, all yields cleared where every
live thread has yielded (R156). A change of the path's set clears the spin count (R161). -/
def selectPath (C : Ctx) : Ctx :=
  let any := (List.range 128).any (fun i => C.tglive.getLsbD i && !C.yielded.getLsbD i)
  let y : BitVec 128 := if any then C.yielded else 0
  let p := (List.range 128).foldl (fun (m : Option Nat) i =>
    if C.tglive.getLsbD i && !y.getLsbD i then
      match m with
      | none => some (threadPc C i)
      | some q => some (min q (threadPc C i))
    else m) none
  match p with
  | none => { C with yielded := y }
  | some p =>
    let path : BitVec 128 := BitVec.ofNat 128 (maskOf 128 (fun i => C.tglive.getLsbD i && threadPc C i == p))
    { C with yielded := y &&& ~~~path, pc := p, tgpath := path
             tgspin := if path = C.tgpath then C.tgspin else 0 }

/-- Set TL_TGCTL.ON and PARKED. -/
def setTg (C : Ctx) (on parked : Bool) : Ctx :=
  { C with tgctl := wset C.tgctl 1 0 (b2n parked * 2 + b2n on) }

/-! Entry -/

/-- TL_ENTRY.EXL. -/
def exl (C : Ctx) : Bool := C.entry.toNat.testBit 0
/-- TL_ENTRY.DFL. -/
def dfl (C : Ctx) : Bool := C.entry.toNat.testBit 1

/-- Accesses of context c that have not responded (R110 step 2): loads and atomics, stores in the buffer or on their
way, and lane-engine instructions. -/
def accessesOut (T : Tile) (c : CtxId) : Bool :=
  let C := T.ctx[c]
  C.loads.any (fun l => l.data.isNone && l.fault.isNone)
    || T.mb.any (fun e => e.who.any (fun w => w.ctx == c.val))
    || T.writes.any (fun w => w.who.any (fun x => x.ctx == c.val))
    || T.lane.any (fun e => e.ctx == c.val)

/-- TL_ECAUSE from its fields (R119). -/
def causeWord (code kind seg access : Nat) (half multi : Bool) : Word :=
  toW (code % 64 + kind % 4 * 2 ^ 8 + seg % 8 * 2 ^ 12 + b2n half * 2 ^ 15 + access % 4 * 2 ^ 16 + b2n multi * 2 ^ 18)

/-- Capture the load-shadow record: at most two loads whose shadow is in force, in program order (R113). PRE of a slot
that holds none keeps its value, `old0` and `old1`. -/
def captureShadow (C : Ctx) (old0 old1 : Word) : Ctx × Word × Word × Word :=
  let ls := (C.loads.filter (fun l => l.shadow != 0)).take 2
  let rec go (C : Ctx) (i : Nat) (lds : Nat) (pre : Nat → Word) : List LoadEnt → Ctx × Nat × (Nat → Word)
    | [] => (C, lds, pre)
    | l :: r =>
      let rd : Reg := Fin.ofNat 32 l.rd
      let old := xget C rd
      go (xset C rd (l.data.getD 0)) (i + 1)
        (lds + (l.rd % 32 + l.shadow % 4 * 2 ^ 5 + 2 ^ 7) * 2 ^ (8 * i))
        (fun j => if j = i then old else pre j) r
  let r := go C 0 0 (fun j => if j = 0 then old0 else old1) ls
  ({ r.1 with loads := [] }, toW r.2.1, r.2.2 0, r.2.2 1)

/-- The stores of context c are fenced: descriptors accepted from now on see them (R203). -/
def fenceStores (T : Tile) (c : CtxId) : Tile := { T with unfenced := T.unfenced.filter (fun u => u.by_ != c.val) }

/-- The work of a fence is done: the clean lines of its ranges leave the L1D and the tile cache (R171). -/
def endFence (s : State) (t : Nat) (c : CtxId) : State :=
  match (getC s t c).fence with
  | none => s
  | some f => modC (modT s t (fun T => f.ranges.foldl (fun T r => dropRange T r.1 r.2) (fenceStores T c))) t c (fun C => { C with fence := none })

/-- Complete a pending entry whose accesses have all responded (R110 steps 3 to 6, R112, R143, R164): the response
faults that arrived replace its cause, the earliest in program order first; an interrupt that is taken clears its bit
of TL_IPEND, and one that a response fault replaces stays pending (R119). A fence whose work was waited for has then
done it (R171). -/
def enter (s : State) (t : Nat) (c : CtxId) (p : PendEntry) : State :=
  let s := endFence s t c
  let C := retire (getC s t c)
  let fs := (C.rfaults ++ C.loads.filterMap (fun l => l.fault))
  let C := { C with loads := C.loads.filter (fun l => l.fault.isNone), rfaults := []
                    ipend := if fs.isEmpty ∧ p.kind = 2 ∧ p.code ≥ 0x20 then C.ipend &&& ~~~(toW (2 ^ (p.code - 0x20))) else C.ipend }
  let first := fs.foldl (fun (m : Option RespFault) f =>
    match m with | none => some f | some g => if f.seq < g.seq then some f else some g) none
  let multi := fs.length ≥ 2
  let code := match first with | some f => f.code | none => p.code
  let kind := match first with | some _ => 2 | none => p.kind
  let cause := match first with
    | some f => causeWord f.code 2 f.seg f.access f.half multi
    | none => causeWord p.code p.kind p.seg p.access p.half false
  let info : Word := match first with | some f => toW (f.addr % 2 ^ 60) | none => p.info
  let esrc : Word := match first with | some f => toW f.pc | none => toW p.esrc
  let C := match first with
    | some f => match f.elem with
      | some (el, g) => { C with vfault := toW (el * 2 ^ 16 + g) }
      | none => C
    | none => C
  -- the others become error records (R110)
  let s := (fs.filter (fun f => first != some f)).foldl (fun s f =>
    postErr s (t / 64) 1 0x0104 t (f.addr % 2 ^ 60)
      (toLE 1 f.code ++ toLE 1 c.val ++ toLE 6 0 ++ toLE 8 f.pc)) s
  let epc := toW (p.epc % 2 ^ 48 / 4 * 4)
  let (C, lds, pre0, pre1) := if exl C then captureShadow C C.dldpre[0] C.dldpre[1] else captureShadow C C.eldpre[0] C.eldpre[1]
  let C :=
    if exl C then
      let C := { C with
        dpc := epc, dstatus := toW (2 + b2n C.sup), dcause := cause, dinfo := info, dsrc := esrc, dlds := lds
        dldpre := (C.dldpre.set 0 pre0).set 1 pre1, dvstart := toW p.vstart, vstart := 0
        entry := toW 3, sup := true }
      { C with pc := (wfld C.vbase 47 12 * 4096 + 0x800) % 2 ^ 48 }
    else
      let C := { C with
        epc := epc, estatus := toW (b2n C.sup), ecause := cause, einfo := info, esrc := esrc, elds := lds
        eldpre := (C.eldpre.set 0 pre0).set 1 pre1, evstart := toW p.vstart, vstart := 0
        entry := toW 1, sup := true }
      let C := if inGroup C then setTg { C with tgpath := p.path } true true else C
      let tgt := if kind = 3 then p.target else none
      { C with pc := match tgt with
                     | some a => a
                     | none => (wfld C.vbase 47 12 * 4096 + 32 * code) % 2 ^ 48 }
  setC s t c { C with pend := none, run := .running, lastLane := none, fenceOn := false }

/-- Complete a context's pending entry if nothing of it is outstanding. -/
def tryEnter (s : State) (t : Nat) (c : CtxId) : State :=
  match (getC s t c).pend with
  | none => s
  | some p => if accessesOut (getT s t) c then s else enter s t c p

/-- Try the pending entries of every context of a tile: called where an access responds. -/
def tryEnterAll (s : State) (t : Nat) : State :=
  (List.range 8).foldl (fun s c => tryEnter s t (cix c)) s

/-- Tile reset on a third fault (R118): one contained record, and the tile is held. -/
def thirdFault (s : State) (t : Nat) (c : CtxId) (code kind : Nat) : State :=
  let C := getC s t c
  let d := toLE 8 C.epc.toNat ++ toLE 8 C.dpc.toNat ++ toLE 4 C.ecause.toNat ++ toLE 4 C.dcause.toNat
    ++ toLE 1 c.val ++ toLE 1 code ++ toLE 1 kind
  let s := postErr s (t / 64) 2 0x0101 t 0 d
  let s := stopTile s t endFault
  modT s t (fun T => { T with held := true, endCause := code, endEpc := C.epc.toNat })

/-- Begin an entry (R110 step 1, R112): mode writes in their shadow take effect; while DFL is 1 a fault, trap, response
fault or `scall` resets the tile instead. -/
def raiseEntry (s : State) (t : Nat) (c : CtxId) (p : PendEntry) : State :=
  let C := getC s t c
  if dfl C then thirdFault s t c p.code p.kind
  else
    let C := applyModes C (fun _ => true)
    tryEnter (setC s t c { C with pend := some p, lastLane := none }) t c

/-- A fault of the instruction at PC `epc` (R105). LN_EVSTART takes LN_VSTART as it stands when the entry is raised, before
the wait of step 2 in which finishing lane-engine instructions write 0 to it; R143 does not say which (DESIGN CHOICE,
assumption 123). -/
def raiseFault (s : State) (t : Nat) (c : CtxId) (f : FaultInfo) : State :=
  let C := getC s t c
  raiseEntry s t c
    { code := f.code, kind := 0, info := f.info, seg := f.seg, access := f.access, half := f.half, epc := C.pc
      esrc := 0, target := none, vstart := wfld C.vstart 3 0, path := C.tgpath }

/-! Completion of an instruction -/

/-- The loop unit at a completed instruction that did not transfer control: next PC and counts (R88). -/
def loopNext (C : Ctx) (p : Nat) : Nat × Ctx :=
  let hit := fun (l : Fin 2) => wfld C.lpcount[l] 31 0 != 0 && p == wfld C.lpend[l] 47 0
  let step := fun (l : Fin 2) (C : Ctx) => { C with lpcount := C.lpcount.set l (toW (wfld C.lpcount[l] 31 0 - 1)) }
  if hit 1 then
    if wfld C.lpcount[1] 31 0 > 1 then (wfld C.lpstart[1] 47 0, step 1 C)
    else
      let C1 := { C with lpcount := C.lpcount.set 1 0 }
      if hit 0 then
        if wfld C.lpcount[0] 31 0 > 1 then (wfld C1.lpstart[0] 47 0, step 0 C1)
        else ((p + 4) % 2 ^ 48, { C1 with lpcount := C1.lpcount.set 0 0 })
      else ((p + 4) % 2 ^ 48, C1)
  else if hit 0 then
    if wfld C.lpcount[0] 31 0 > 1 then (wfld C.lpstart[0] 47 0, step 0 C)
    else ((p + 4) % 2 ^ 48, { C with lpcount := C.lpcount.set 0 0 })
  else ((p + 4) % 2 ^ 48, C)

/-- The next PC of a completed instruction at `p` and the counts after it (R88); no back-edge while EXL or DFL is 1
(R117). A back-edge takes TL_LPSTART.START as it stands, also where `csrw` gave it nonzero bits [1:0], which R88 leaves
as they are and the PC of R69 does not hold (DESIGN CHOICE, assumption 114). -/
def nextPc (C : Ctx) (p : Nat) (target : Option Nat) : Nat × Ctx :=
  match target with
  | some a => (a % 2 ^ 48, C)
  | none => if exl C || dfl C then ((p + 4) % 2 ^ 48, C) else loopNext C p

/-- The PC part of completion: plain mode by R88; in group mode every thread of the path moves, a backward transfer
counts, and the path is selected again (R153, R156, R161). -/
def advance (C : Ctx) (target : Option Nat) : Ctx :=
  if inGroup C then
    let p := C.pc
    let q := (target.getD (p + 4)) % 2 ^ 48
    let C := match target with
      | some a => if a % 2 ^ 48 ≤ p then { C with tgspin := toW ((wfld C.tgspin 23 0 + 1) % 2 ^ 24) } else C
      | none => C
    selectPath (setThreads C C.tgpath (fun _ => q))
  else
    let (q, C) := nextPc C C.pc target
    { C with pc := q }

/-- An instruction completes: the PC moves, shadows count down, a single step ends (R88, R81, R94, R390). -/
def finish (s : State) (t : Nat) (c : CtxId) (target : Option Nat) : State :=
  modC s t c (fun C =>
    let C := countDown (advance C target)
    { C with lastLane := none, fenceOn := false, dbg := if C.dbg = 2 then 1 else C.dbg })

/-- A transfer in group mode that would make COUNT exceed a nonzero LIMIT (R161). -/
def livelock (C : Ctx) (target : Option Nat) : Bool :=
  match target with
  | some a =>
    inGroup C && a % 2 ^ 48 ≤ C.pc && wfld C.tgctl 39 16 != 0 && wfld C.tgspin 23 0 + 1 > wfld C.tgctl 39 16
  | none => false

/-! Issue -/

/-- What an instruction does once it issues. -/
inductive IssueRes where
  /-- Waits at IS: the state is as given, the instruction has not executed. -/
  | wait (s : State)
  /-- Raises a fault; nothing else changes. -/
  | fault (f : FaultInfo)
  /-- Completes in the state given, with the target of a taken transfer. -/
  | ok (s : State) (target : Option Nat)

/-- An enabled pending interrupt that can be taken now, in the order of R108: bit of TL_IPEND. -/
def takeable (C : Ctx) : Option Nat :=
  if exl C || dfl C then none
  else
    let m := C.ien.toNat &&& C.ipend.toNat
    if m.testBit 2 then some 2 else if m.testBit 1 then some 1 else if m.testBit 0 then some 0 else none

/-- A lane-engine memory instruction of the context has groups whose checks are still to come (R138). -/
def laneChecking (T : Tile) (c : CtxId) : Bool :=
  T.lane.any (fun e => e.ctx == c.val && !e.stopped && decide (e.next < e.groups) &&
    (match e.ins with
     | .vload .. => true | .vstore .. => true | .vamo .. => true | .vmacm .. => true | _ => false))

/-- The fetch of the instruction at PC: the check of R75 through seg0, then the address map (R75, R39). -/
def fetchFault (s : State) (C : Ctx) : Option FaultInfo :=
  match segCheck C 0 C.pc 4 0 with
  | some code => some { code := code, info := toW C.pc, seg := 0, access := 0, half := false }
  | none =>
    match placeOf s (segAddr C 0 C.pc) with
    | .hole => some { code := 0x07, info := toW C.pc, seg := 0, access := 0, half := false }
    | .ctrl _ _ => some { code := 0x07, info := toW C.pc, seg := 0, access := 0, half := false }
    | _ => none

/-- The context can issue an instruction: its tile is in T0 and not held, a launch runs on it, nothing halts it, no
entry is pending, and no response fault or interrupt is due at this boundary (R69, R105, R107, R109, R112). -/
def canIssue (s : State) (t : Nat) (c : CtxId) : Bool :=
  let T := getT s t
  let C := T.ctx[c]
  T.tstate == .t0 && !T.held && C.run == .running && (C.dbg == 0 || C.dbg == 2) && C.pend.isNone
    && C.rfaults.isEmpty && (takeable C).isNone && !laneChecking T c

/-- A scalar result of an unfinished lane-engine instruction writes register r (R129). -/
def laneWrites (T : Tile) (c : CtxId) (r : Reg) : Bool :=
  T.lane.any (fun e => e.ctx == c.val &&
    (match e.ins with
     | .vmvXS _ _ rd _ => rd == r
     | .vmacm _ _ _ _ rs1 rs2 _ => rs1 == r || rs2 == r
     | _ => false))

/-- An instruction that reads or writes register r waits at IS: a pending load past its shadow, or a lane-engine
result, has not been written (R82, R129). -/
def regBusy (T : Tile) (c : CtxId) (r : Reg) : Bool :=
  r != 0 && (T.ctx[c].loads.any (fun l => l.rd == r.val && l.shadow == 0) || laneWrites T c r)

/-- The lane-engine instruction issued last counts as completed toward shadows: no entry returns to it any more (R81,
R113, R142). -/
def settleLane (s : State) (t : Nat) (c : CtxId) : State :=
  if (getC s t c).lastLane.isSome then modC s t c (fun C => { countDown C with lastLane := none }) else s

/-- The completion of a lane-engine instruction counts toward shadows when the next instruction issues, since until
then an interrupt can return to it (R81, R113, R142). -/
def settle (s : State) (t : Nat) (c : CtxId) : State :=
  if canIssue s t c ∧ (getC s t c).lastLane.isSome then modC s t c (fun C => { countDown C with lastLane := none }) else s

/-- Undo `settle` for an instruction that waits at IS, unless a response fault became due: `C0` is the context before. -/
def unsettle (s : State) (t : Nat) (c : CtxId) (C0 : Ctx) : State :=
  if C0.lastLane.isSome ∧ (getC s t c).rfaults.isEmpty then
    modC s t c (fun C => { C with x := C0.x, loads := C0.loads, modeWrites := C0.modeWrites, rfaults := C0.rfaults
                                  rstrap := C0.rstrap, sega := C0.sega, segl := C0.segl, lastLane := C0.lastLane })
  else s

/-- Issue an instruction that reads and writes the registers listed: it waits, faults or completes through `fin` (R69 to
R72, R82, R108, R161); `onFault` takes its faults. A command that cannot issue leaves the state unchanged (assumption 3). -/
def issueWith (s0 : State) (t : Nat) (c : CtxId) (regs : List Reg) (body : State → Ctx → IssueRes)
    (fin : State → Option Nat → State)
    (onFault : State → FaultInfo → State := fun s f => raiseFault s t c f) : State :=
  let s := settle s0 t c
  if !canIssue s t c then s0
  else
    let C := getC s t c
    match fetchFault s C with
    | some f => raiseFault s t c f
    | none =>
      if regs.any (regBusy (getT s t) c) then s0
      else
        match body s C with
        | .wait s' => unsettle s' t c (getC s0 t c)
        | .fault f => onFault s f
        | .ok s' target =>
          if livelock C target then raiseFault s t c (plainFault 0x1A (toW (target.getD 0 % 2 ^ 48)))
          else fin s' target

/-- Issue an instruction that completes as R88 says. -/
def issue (s : State) (t : Nat) (c : CtxId) (regs : List Reg) (body : State → Ctx → IssueRes) : State :=
  issueWith s t c regs body (fun s' target => finish s' t c target)

/-- A scalar instruction that writes one register and changes nothing else. -/
def issueReg (s : State) (t : Nat) (c : CtxId) (rd : Reg) (srcs : List Reg) (f : Ctx → Word) : State :=
  issue s t c (rd :: srcs) (fun s C => .ok (setC s t c (xset C rd (f C))) none)

end Machine
end Sys2Proof
end

