-- ==== Sys2Proof/Machine/Scalar.lean ====
section
/-!
DEFINITION. The scalar arithmetic instructions (03 Table 9, R102).
-/

namespace Sys2Proof
namespace Machine

/-- add, sub, and, or, xor modulo 2^64 (R102). -/
def aluOp (op : AluOp) (a b : Word) : Word :=
  match op with | .add => a + b | .sub => a - b | .and => a &&& b | .or => a ||| b | .xor => a ^^^ b

/-- Shift by an amount of 0 to 63 (R102). -/
def shiftOp (op : ShiftOp) (a : Word) (n : Nat) : Word :=
  match op with | .sll => a <<< n | .srl => a >>> n | .sra => a.sshiftRight n

/-- Signed or unsigned comparison (R102). -/
def sltOp (op : SltOp) (a b : Word) : Word :=
  match op with
  | .slt => if a.toInt < b.toInt then 1 else 0
  | .sltu => if a.toNat < b.toNat then 1 else 0

/-- Signed or unsigned minimum or maximum (R102). -/
def minMaxOp (op : MinMaxOp) (a b : Word) : Word :=
  match op with
  | .min => if a.toInt < b.toInt then a else b
  | .max => if a.toInt < b.toInt then b else a
  | .minu => if a.toNat < b.toNat then a else b
  | .maxu => if a.toNat < b.toNat then b else a

/-- 32-bit add or subtract, sign-extended (R102). -/
def wOp (op : WOp) (a b : Word) : Word :=
  match op with
  | .addw => sextW 32 (a + b).toNat
  | .subw => sextW 32 (a - b).toNat

/-- Leading zeros of w bits. -/
def clzN (w n : Nat) : Nat := w - bitlen (n % 2 ^ w)

/-- Trailing zeros, w for zero. -/
def ctzN (w n : Nat) : Nat := ((List.range w).find? (fun i => n.testBit i)).getD w

/-- clz, ctz, popc (R102). -/
def countOp (op : CountOp) (a : Word) : Word :=
  match op with
  | .clz => toW (clzN 64 a.toNat)
  | .ctz => toW (ctzN 64 a.toNat)
  | .popc => toW (popc 64 a.toNat)

/-- mul and the high halves (R102). -/
def mulOp (op : MulOp) (a b : Word) : Word :=
  match op with
  | .mul => a * b
  | .mulh => toW (wrapI 64 ((a.toInt * b.toInt) / ((2 ^ 64 : Nat) : Int)))
  | .mulhu => toW ((a.toNat * b.toNat) / 2 ^ 64)
  | .mulhsu => toW (wrapI 64 ((a.toInt * (b.toNat : Int)) / ((2 ^ 64 : Nat) : Int)))

/-- Division and remainder: truncated, divisor 0 gives all ones and the dividend, no fault (R102). -/
def divOp (op : DivOp) (a b : Word) : Word :=
  match op with
  | .div => if b = 0 then BitVec.allOnes 64 else toW (wrapI 64 (a.toInt.tdiv b.toInt))
  | .divu => if b = 0 then BitVec.allOnes 64 else toW (a.toNat / b.toNat)
  | .rem => if b = 0 then a else toW (wrapI 64 (a.toInt.tmod b.toInt))
  | .remu => if b = 0 then a else toW (a.toNat % b.toNat)

/-- addi, slti, sltiu with the sign-extended immediate (R102). -/
def addiOp (op : AddiOp) (a : Word) (imm : BitVec 16) : Word :=
  let v := sextW 16 imm.toNat
  match op with | .addi => a + v | .slti => sltOp .slt a v | .sltiu => sltOp .sltu a v

/-- andi, ori, xori with the zero-extended immediate (R102). -/
def logicOp (op : LogicOp) (a : Word) (imm : BitVec 16) : Word :=
  let v : Word := imm.setWidth 64
  match op with | .andi => a &&& v | .ori => a ||| v | .xori => a ^^^ v

/-- ADD_SUB_LOGIC (R102). -/
def execAddSubLogic (t : TileId) (c : CtxId) (op : AluOp) (rd rs1 rs2 : Reg) (s : State) :
    Host.Outcome State Fault Refusal :=
  .next (issueReg s t c rd [rs1, rs2] (fun C => aluOp op (xget C rs1) (xget C rs2)))

/-- SHIFT by rs2[5:0] (R102). -/
def execShift (t : TileId) (c : CtxId) (op : ShiftOp) (rd rs1 rs2 : Reg) (s : State) :
    Host.Outcome State Fault Refusal :=
  .next (issueReg s t c rd [rs1, rs2] (fun C => shiftOp op (xget C rs1) ((xget C rs2).toNat % 64)))

/-- SET_LESS_THAN (R102). -/
def execSetLessThan (t : TileId) (c : CtxId) (op : SltOp) (rd rs1 rs2 : Reg) (s : State) :
    Host.Outcome State Fault Refusal :=
  .next (issueReg s t c rd [rs1, rs2] (fun C => sltOp op (xget C rs1) (xget C rs2)))

/-- MIN_MAX (R102). -/
def execMinMax (t : TileId) (c : CtxId) (op : MinMaxOp) (rd rs1 rs2 : Reg) (s : State) :
    Host.Outcome State Fault Refusal :=
  .next (issueReg s t c rd [rs1, rs2] (fun C => minMaxOp op (xget C rs1) (xget C rs2)))

/-- ADDW_SUBW (R102). -/
def execAddwSubw (t : TileId) (c : CtxId) (op : WOp) (rd rs1 rs2 : Reg) (s : State) :
    Host.Outcome State Fault Refusal :=
  .next (issueReg s t c rd [rs1, rs2] (fun C => wOp op (xget C rs1) (xget C rs2)))

/-- BIT_COUNT (R102). -/
def execBitCount (t : TileId) (c : CtxId) (op : CountOp) (rd rs1 : Reg) (s : State) :
    Host.Outcome State Fault Refusal :=
  .next (issueReg s t c rd [rs1] (fun C => countOp op (xget C rs1)))

/-- MUL (R102). -/
def execMul (t : TileId) (c : CtxId) (op : MulOp) (rd rs1 rs2 : Reg) (s : State) :
    Host.Outcome State Fault Refusal :=
  .next (issueReg s t c rd [rs1, rs2] (fun C => mulOp op (xget C rs1) (xget C rs2)))

/-- DIV_REM (R102). -/
def execDivRem (t : TileId) (c : CtxId) (op : DivOp) (rd rs1 rs2 : Reg) (s : State) :
    Host.Outcome State Fault Refusal :=
  .next (issueReg s t c rd [rs1, rs2] (fun C => divOp op (xget C rs1) (xget C rs2)))

/-- ADDI (R102). -/
def execAddi (t : TileId) (c : CtxId) (op : AddiOp) (rd rs1 : Reg) (imm : BitVec 16) (s : State) :
    Host.Outcome State Fault Refusal :=
  .next (issueReg s t c rd [rs1] (fun C => addiOp op (xget C rs1) imm))

/-- LOGIC_IMM (R102). -/
def execLogicImm (t : TileId) (c : CtxId) (op : LogicOp) (rd rs1 : Reg) (imm : BitVec 16) (s : State) :
    Host.Outcome State Fault Refusal :=
  .next (issueReg s t c rd [rs1] (fun C => logicOp op (xget C rs1) imm))

/-- SHIFT_IMM (R102). -/
def execShiftImm (t : TileId) (c : CtxId) (op : ShiftOp) (rd rs1 : Reg) (amt : BitVec 6) (s : State) :
    Host.Outcome State Fault Refusal :=
  .next (issueReg s t c rd [rs1] (fun C => shiftOp op (xget C rs1) amt.toNat))

/-- LUI: sext(imm21) << 16 (R102). -/
def execLui (t : TileId) (c : CtxId) (rd : Reg) (imm : BitVec 21) (s : State) : Host.Outcome State Fault Refusal :=
  .next (issueReg s t c rd [] (fun _ => sextW 21 imm.toNat <<< 16))

/-- LAPC: PC + 4 sext(imm21) (R102). -/
def execLapc (t : TileId) (c : CtxId) (rd : Reg) (imm : BitVec 21) (s : State) : Host.Outcome State Fault Refusal :=
  .next (issueReg s t c rd [] (fun C => toW C.pc + 4 * sextW 21 imm.toNat))

end Machine
end Sys2Proof
end

