-- ==== Sys2Proof/Machine/Control.lean ====
section
/-!
DEFINITION. Control transfer, hardware loops, the return stack, thread groups, returns and `scall` (03 Table 11,
R84 to R88; 04 R111 to R116; 06 R153 to R161).
-/

namespace Sys2Proof
namespace Machine

/-- PC-relative target: PC + 4 times a signed offset, modulo 2^48 (R100). -/
def relTarget (C : Ctx) (w n : Nat) : Nat := (toW C.pc + 4 * sextW w n).toNat % 2 ^ 48

/-- The comparisons of the branches (R102). -/
def branchTaken (op : BranchOp) (a b : Word) : Bool :=
  match op with
  | .beq => a == b
  | .bne => a != b
  | .blt => decide (a.toInt < b.toInt)
  | .bge => decide (b.toInt ≤ a.toInt)
  | .bltu => decide (a.toNat < b.toNat)
  | .bgeu => decide (b.toNat ≤ a.toNat)

/-- The running path holds every live thread (R160). -/
def uniformPath (C : Ctx) : Bool := !inGroup C || C.tgpath == C.tglive

/-- Push onto the return stack; none where RSTRAP makes it RS_OVERFLOW (R85). -/
def rsPush (C : Ctx) (v : Nat) : Option Ctx :=
  if C.rsCount ≥ 16 ∧ C.rstrap then none
  else
    let top := if C.rsCount = 0 then C.rsTop % 16 else (C.rsTop + 1) % 16
    some { C with rs := C.rs.set (top % 16) (BitVec.ofNat 48 v) (Nat.mod_lt _ (by decide)), rsTop := top
                  rsCount := min 16 (C.rsCount + 1) }

/-- The entry the next pop returns (R85). -/
def rsTopVal (C : Ctx) : Nat := (C.rs[C.rsTop % 16]'(Nat.mod_lt _ (by decide))).toNat

/-- Remove the top entry (R84). -/
def rsDrop (C : Ctx) : Ctx :=
  { C with rsTop := if C.rsCount ≤ 1 then C.rsTop else (C.rsTop + 15) % 16, rsCount := C.rsCount - 1 }

/-- TG_UNIFORM for an instruction that needs the whole group on its path (R160, R168). -/
def uniformFault (C : Ctx) (i : Instr) : Option FaultInfo :=
  if uniformPath C then none else some (plainFault 0x1B (wordInfo i))

/-- TG_STATE for an instruction that group mode forbids (R160, R168). -/
def groupFault (C : Ctx) (i : Instr) : Option FaultInfo :=
  if inGroup C then some (plainFault 0x1C (wordInfo i)) else none

/-- The first fault of a list of checks, else the body. -/
def orFault (fs : List (Option FaultInfo)) (k : IssueRes) : IssueRes :=
  match fs.findSome? id with
  | some f => .fault f
  | none => k

/-- BRANCH (R102). -/
def execBranch (t : TileId) (c : CtxId) (op : BranchOp) (rs1 rs2 : Reg) (off : BitVec 16) (s : State) :
    Host.Outcome State Fault Refusal :=
  .next (issue s t c [rs1, rs2] (fun s C =>
    .ok s (if branchTaken op (xget C rs1) (xget C rs2) then some (relTarget C 16 off.toNat) else none)))

/-- JUMP (R102). -/
def execJump (t : TileId) (c : CtxId) (off : BitVec 26) (s : State) : Host.Outcome State Fault Refusal :=
  .next (issue s t c [] (fun s C => .ok s (some (relTarget C 26 off.toNat))))

/-- CALL: push PC + 4 and jump (R84, R85). -/
def execCall (t : TileId) (c : CtxId) (off : BitVec 26) (s : State) : Host.Outcome State Fault Refusal :=
  .next (issue s t c [] (fun s C =>
    orFault [uniformFault C (.call t c off)]
      (match rsPush C (C.pc + 4) with
       | none => .fault (plainFault 0x08 0)
       | some C' => .ok (setC s t c C') (some (relTarget C 26 off.toNat)))))

/-- FETCH_ALIGN for a target whose bits [1:0] are not zero (R102, R105). -/
def alignFault (a : Nat) : Option FaultInfo := if a % 4 = 0 then none else some (plainFault 0x02 (toW a))

/-- JR (R102). -/
def execJr (t : TileId) (c : CtxId) (rd rs1 : Reg) (s : State) : Host.Outcome State Fault Refusal :=
  .next (issue s t c [rd, rs1] (fun s C =>
    let a := (xget C rs1).toNat
    orFault [alignFault a] (.ok (setC s t c (xset C rd (toW (C.pc + 4)))) (some (a % 2 ^ 48)))))

/-- CALLR: push PC + 4, write rd, jump (R84, R85, R102). -/
def execCallr (t : TileId) (c : CtxId) (rd rs1 : Reg) (s : State) : Host.Outcome State Fault Refusal :=
  .next (issue s t c [rd, rs1] (fun s C =>
    let a := (xget C rs1).toNat
    orFault [uniformFault C (.callr t c rd rs1), alignFault a]
      (match rsPush C (C.pc + 4) with
       | none => .fault (plainFault 0x08 0)
       | some C' => .ok (setC s t c (xset C' rd (toW (C.pc + 4)))) (some (a % 2 ^ 48)))))

/-- RET: pop and jump; a misaligned entry stays on the stack (R84, R85, R102). -/
def execRet (t : TileId) (c : CtxId) (s : State) : Host.Outcome State Fault Refusal :=
  .next (issue s t c [] (fun s C =>
    orFault [uniformFault C (.ret t c),
        if C.rsCount = 0 then some (plainFault 0x09 0) else alignFault (rsTopVal C)]
      (.ok (setC s t c (rsDrop C)) (some (rsTopVal C)))))

/-- The last instruction of an active loop body (R87). -/
def atLoopEnd (C : Ctx) : Bool :=
  (wfld C.lpcount[0] 31 0 != 0 && C.pc == wfld C.lpend[0] 47 0)
    || (wfld C.lpcount[1] 31 0 != 0 && C.pc == wfld C.lpend[1] 47 0)

/-- LOOP_NEST (R87). -/
def nestFault (C : Ctx) (l : Fin 2) (len : Nat) : Option FaultInfo :=
  let e := (C.pc + 4 * len) % 2 ^ 48
  let act := fun (k : Fin 2) => wfld C.lpcount[k] 31 0 != 0
  if (l = 0 ∧ act 1) ∨ (l = 1 ∧ act 0 ∧ e > wfld C.lpend[0] 47 0) ∨ atLoopEnd C = true then
    some (plainFault 0x0A 0) else none

/-- Set up loop l over len instructions with count n (R86): with a count of 0 execution continues after the body and
the loop is inactive, START and END kept. -/
def loopSetup (s : State) (t : Nat) (c : CtxId) (C : Ctx) (l : Fin 2) (n len : Nat) : IssueRes :=
  if n = 0 then .ok (setC s t c { C with lpcount := C.lpcount.set l 0 }) (some (C.pc + 4 + 4 * len))
  else .ok (setC s t c { C with lpstart := C.lpstart.set l (toW ((C.pc + 4) % 2 ^ 48))
                                lpend := C.lpend.set l (toW ((C.pc + 4 * len) % 2 ^ 48))
                                lpcount := C.lpcount.set l (toW n) }) none

/-- LOOP (R86, R87). -/
def execLoop (t : TileId) (c : CtxId) (l : Fin 2) (rs : Reg) (len : BitVec 12) (s : State) :
    Host.Outcome State Fault Refusal :=
  .next (issue s t c [rs] (fun s C =>
    orFault [groupFault C (.loop t c l rs len), nestFault C l (len.toNat + 1)]
      (loopSetup s t c C l (min (xget C rs).toNat 0xFFFFFFFF) (len.toNat + 1))))

/-- LOOPI (R86, R87). -/
def execLoopi (t : TileId) (c : CtxId) (l : Fin 2) (cnt : BitVec 11) (len : BitVec 12) (s : State) :
    Host.Outcome State Fault Refusal :=
  .next (issue s t c [] (fun s C =>
    orFault [groupFault C (.loopi t c l cnt len), nestFault C l (len.toNat + 1)]
      (loopSetup s t c C l cnt.toNat (len.toNat + 1))))

/-- LPCLR (R86). -/
def execLpclr (t : TileId) (c : CtxId) (l : Fin 2) (s : State) : Host.Outcome State Fault Refusal :=
  .next (issue s t c [] (fun s C =>
    orFault [groupFault C (.lpclr t c l)] (.ok (setC s t c { C with lpcount := C.lpcount.set l 0 }) none)))

/-- RSPUSH (R84, R85). -/
def execRspush (t : TileId) (c : CtxId) (rs1 : Reg) (s : State) : Host.Outcome State Fault Refusal :=
  .next (issue s t c [rs1] (fun s C =>
    orFault [uniformFault C (.rspush t c rs1)]
      (match rsPush C ((xget C rs1).toNat % 2 ^ 48) with
       | none => .fault (plainFault 0x08 0)
       | some C' => .ok (setC s t c C') none)))

/-- RSPOP (R84, R85). -/
def execRspop (t : TileId) (c : CtxId) (rd : Reg) (s : State) : Host.Outcome State Fault Refusal :=
  .next (issue s t c [rd] (fun s C =>
    orFault [uniformFault C (.rspop t c rd), if C.rsCount = 0 then some (plainFault 0x09 0) else none]
      (.ok (setC s t c (xset (rsDrop C) rd (toW (rsTopVal C)))) none)))

/-- RSCLR (R84). -/
def execRsclr (t : TileId) (c : CtxId) (s : State) : Host.Outcome State Fault Refusal :=
  .next (issue s t c [] (fun s C =>
    orFault [uniformFault C (.rsclr t c)] (.ok (setC s t c { C with rsTop := 0, rsCount := 0 }) none)))

/-! Thread groups -/

/-- TGON (R154). -/
def execTgon (t : TileId) (c : CtxId) (rs1 : Reg) (s : State) : Host.Outcome State Fault Refusal :=
  .next (issue s t c [rs1] (fun s C =>
    let bad := C.tgctl.toNat.testBit 0 || exl C || wfld C.lpcount[0] 31 0 != 0 || wfld C.lpcount[1] 31 0 != 0
    let n := min (xget C rs1).toNat 128
    orFault [if bad then some (plainFault 0x1C (wordInfo (.tgon t c rs1))) else none]
      (if n = 0 then .ok s none
       else
        let live : BitVec 128 := BitVec.ofNat 128 (2 ^ n - 1)
        let C := setTg { C with tglive := live, yielded := 0, tgspin := 0, tgpath := live } true false
        .ok (setC s t c C) none)))

/-- TGOFF (R155): the running path's threads end; plain mode where none remains. -/
def execTgoff (t : TileId) (c : CtxId) (s : State) : Host.Outcome State Fault Refusal :=
  .next (issue s t c [] (fun s C =>
    if !inGroup C then .fault (plainFault 0x1C (wordInfo (.tgoff t c)))
    else
      let live := C.tglive &&& ~~~C.tgpath
      if live = 0 then
        .ok (setC s t c (setTg { C with tglive := 0, tgpath := 0 } false false)) none
      else .ok (setC s t c { C with tglive := live }) none))

/-- A lane-engine instruction in flight writes vector register v of the context (R157). -/
def vregPending (T : Tile) (c : CtxId) (v : VReg) : Bool :=
  T.lane.any (fun e => e.ctx == c.val &&
    (match e.ins with
     | .vmvSX _ _ vs _ => vs == v
     | .vmvVX _ _ vs _ => vs == v
     | .vintOp _ _ _ vd _ _ _ => vd == v
     | .vfpOp _ _ _ vd _ _ _ => vd == v
     | .vcompare _ _ _ vd _ _ _ => vd == v
     | .vmerge _ _ vd _ _ => vd == v
     | .vfcvt _ _ _ vd _ _ => vd == v
     | .vfdivVfsqrt _ _ _ vd _ _ _ => vd == v
     | .vwidenMul _ _ _ vd _ _ _ => vd == v || vd.val + 1 == v.val
     | .vdot _ _ _ vd _ _ _ => vd == v
     | .vreduceInt _ _ _ vd _ _ => vd == v
     | .vreduceFp _ _ _ vd _ _ => vd == v
     | .vrgather _ _ vd _ _ _ => vd == v
     | .vslideup _ _ vd _ _ _ => vd == v
     | .vslidedown _ _ vd _ _ _ => vd == v
     | .vcompress _ _ vd _ => vd == v
     | .vid _ _ vd _ => vd == v
     | .vmacm _ _ _ vd _ _ _ => vd == v
     | .vload _ _ vd _ _ _ _ => vd == v
     | .vamo _ _ _ vd _ _ _ _ => vd == v
     | _ => false))

/-- Byte address of register v of context c in the lane register file. -/
def vrAddr (c v : Nat) : Nat := (64 * c + v) * 1024

/-- V_REG, then V_CONFIG where LN_VSTART.GROUP is nonzero (R141, R144), then TG_STATE (R168; assumption 127). The
threads of the path whose vs bit equals `on` move to the target, the others to PC + 4; a move of at least one thread to a
target at or below the PC is a backward transfer (R157, R161). -/
def tbrBody (t : TileId) (c : CtxId) (vs : VReg) (rs1 : Reg) (on : Bool) (w : Word) (s : State) (C : Ctx) : IssueRes :=
  let T := getT s t
  if vs.val ≥ T.vregs then .fault (plainFault 0x19 w)
  else if wfld C.vstart 3 0 ≠ 0 then .fault (plainFault 0x18 w)
  else if !inGroup C then .fault (plainFault 0x1C w)
  else if vregPending T c vs then .wait s
  else
    let a := (xget C rs1).toNat
    match alignFault a with
    | some f => .fault f
    | none =>
      let tgt := a % 2 ^ 48
      let mask : BitVec 128 := BitVec.ofNat 128 (ofLE (stReadN T.vr (vrAddr c vs) 16))
      let mv := C.tgpath &&& (if on then mask else ~~~mask)
      let back := mv != 0 && decide (tgt ≤ C.pc)
      if back ∧ wfld C.tgctl 39 16 ≠ 0 ∧ wfld C.tgspin 23 0 + 1 > wfld C.tgctl 39 16 then
        .fault (plainFault 0x1A (toW tgt))
      else
        let C := if back then { C with tgspin := toW ((wfld C.tgspin 23 0 + 1) % 2 ^ 24) } else C
        let C := setThreads C C.tgpath (fun i => if mv.getLsbD i then tgt else (C.pc + 4) % 2 ^ 48)
        .ok (setC s t c C) none

/-- Complete an instruction that has moved its threads itself (R156). -/
def finishGroup (s : State) (t : Nat) (c : CtxId) : State :=
  modC s t c (fun C =>
    let C := countDown (selectPath C)
    { C with lastLane := none, dbg := if C.dbg = 2 then 1 else C.dbg })

/-- Issue an instruction that moves the threads of its path itself. -/
def issueGroup (s : State) (t : Nat) (c : CtxId) (regs : List Reg) (body : State → Ctx → IssueRes) : State :=
  issueWith s t c regs body (fun s' _ => finishGroup s' t c)

/-- A lane-engine instruction that faults before it performs a group leaves LN_VSTART 0 (R141). -/
def raiseLane (s : State) (t : Nat) (c : CtxId) (f : FaultInfo) : State :=
  raiseFault (modC s t c (fun C => { C with vstart := 0 })) t c f

/-- TBR (R157). -/
def execTbr (t : TileId) (c : CtxId) (vs : VReg) (rs1 : Reg) (s : State) : Host.Outcome State Fault Refusal :=
  .next (issueWith s t c [rs1] (tbrBody t c vs rs1 true (wordInfo (.tbr t c vs rs1))) (fun s' _ => finishGroup s' t c)
    (fun s f => raiseLane s t c f))

/-- TBRZ (R157). -/
def execTbrz (t : TileId) (c : CtxId) (vs : VReg) (rs1 : Reg) (s : State) : Host.Outcome State Fault Refusal :=
  .next (issueWith s t c [rs1] (tbrBody t c vs rs1 false (wordInfo (.tbrz t c vs rs1))) (fun s' _ => finishGroup s' t c)
    (fun s f => raiseLane s t c f))

/-- YIELDW: no effect outside a running group; in one, the path yields and moves to PC + 4, and the spin count
restarts (R158, R161, R164). -/
def execYieldw (t : TileId) (c : CtxId) (s : State) : Host.Outcome State Fault Refusal :=
  if inGroup (getC s t c) then
    .next (issueGroup s t c [] (fun s C =>
      .ok (setC s t c (setThreads { C with yielded := C.yielded ||| C.tgpath, tgspin := 0 } C.tgpath
        (fun _ => (C.pc + 4) % 2 ^ 48))) none))
  else .next (issue s t c [] (fun s _ => .ok s none))

/-! Traps, scall and returns -/

/-- An instruction that completes into an entry: in plain mode as R88 says; in group mode the entry keeps the thread PCs,
the yields and the spin count, and the return moves the parked path (R164, R165). -/
def finishEntering (s : State) (t : Nat) (c : CtxId) : State :=
  if inGroup (getC s t c) then
    modC s t c (fun C => { countDown C with lastLane := none, fenceOn := false, dbg := if C.dbg = 2 then 1 else C.dbg })
  else finish s t c none

/-- BRK: BREAKPOINT as a trap, TL_EPC at the PC R88 gives for a completed instruction (R105). -/
def execBrk (t : TileId) (c : CtxId) (s : State) : Host.Outcome State Fault Refusal :=
  .next (issueWith s t c [] (fun s _ => .ok s none) (fun s _ =>
    let C := getC s t c
    let s := finishEntering s t c
    let C' := getC s t c
    let epc := if inGroup C then (C.pc + 4) % 2 ^ 48 else C'.pc
    raiseEntry s t c { code := 0x0D, kind := 1, info := 0, seg := 0, access := 0, half := false, epc := epc
                       esrc := 0, target := none, vstart := wfld C'.vstart 3 0, path := C.tgpath }))

/-- SCALL n: enters at e(n).TARGET, or raises SCALL_FAULT (R111, R112). -/
def execScall (t : TileId) (c : CtxId) (n : SegId) (s : State) : Host.Outcome State Fault Refusal :=
  .next (issueWith s t c []
    (fun s C =>
      let e := C.e[n]
      if !e.toNat.testBit 63 || (!C.sup && !e.toNat.testBit 62) || exl C then .fault (plainFault 0x0C 0) else .ok s none)
    (fun s _ =>
      let C := getC s t c
      let s := finishEntering s t c
      let C' := getC s t c
      let epc := if inGroup C then (C.pc + 4) % 2 ^ 48 else C'.pc
      raiseEntry s t c { code := n.val, kind := 3, info := 0, seg := 0, access := 0, half := false, epc := epc
                         esrc := 0, target := some (wfld C.e[n] 47 2 * 4), vstart := wfld C'.vstart 3 0
                         path := C.tgpath }))

/-- A valid slot of a load-shadow record whose REMAIN is 0 or 3, or whose RD is 0 (R119). -/
def badLds (lds : Word) : Bool :=
  let bad := fun (b : Nat) => bitN (b / 128) 0 && (b / 32 % 4 == 0 || b / 32 % 4 == 3 || b % 32 == 0)
  bad (lds.toNat % 256) || bad (lds.toNat / 256 % 256)

/-- Restore the load-shadow record: each valid slot's register gets its earlier value back, and its loaded value is
scheduled (R114). -/
def restoreShadow (C : Ctx) (lds : Word) (pre0 pre1 : Word) : Ctx :=
  let one := fun (C : Ctx) (b : Nat) (pre : Word) =>
    if bitN (b / 128) 0 then
      let rd : Reg := Fin.ofNat 32 b
      let l : LoadEnt := { seq := 0, rd := b % 32, shadow := b / 32 % 4, kind := .sched, pc := 0, seg := 0
                           pieces := [], waits := [], data := some (xget C rd), fault := none }
      xset { C with loads := l :: C.loads } rd pre
    else C
  one (one C (lds.toNat / 256 % 256) pre1) (lds.toNat % 256) pre0

/-- Resume a parked group (R165): the parked path's live threads go to the return PC and a path is selected; plain mode
where no thread is live. -/
def groupReplay (C : Ctx) (pc : Nat) : Ctx :=
  if C.tgctl.toNat.testBit 1 then
    if C.tglive = 0 then { setTg C false false with pc := pc, tgspin := 0, tgpath := 0 }
    else
      let C := setThreads C (C.tgpath &&& C.tglive) (fun _ => pc)
      { selectPath (setTg { C with tgspin := 0 } true false) with tgspin := 0 }
  else { C with pc := pc }

/-- Restore the level a return goes back to (R114, R112, R143, R165): from the D registers while DFL is 1, else from
the E registers, resuming a parked group. -/
def returnTo (C : Ctx) : Ctx :=
  let C :=
    if dfl C then
      let C := { C with sup := C.dstatus.toNat.testBit 0
                        entry := toW (b2n (C.dstatus.toNat.testBit 1)), vstart := C.dvstart }
      { restoreShadow C C.dlds C.dldpre[0] C.dldpre[1] with pc := wfld C.dpc 47 2 * 4 }
    else
      let C := { C with sup := C.estatus.toNat.testBit 0, entry := 0, vstart := C.evstart }
      groupReplay (restoreShadow C C.elds C.eldpre[0] C.eldpre[1]) (wfld C.epc 47 2 * 4)
  { C with lastLane := none, dbg := if C.dbg = 2 then 1 else C.dbg }

/-- A return, `eret` or `sret`: waits for the returning code's loads, ends its shadows, and restores the level it
returns to (R114, R112); a response fault that becomes due is left to be taken at this boundary (R109). -/
def doReturn (t : TileId) (c : CtxId) (w : Word) (isSret : Bool) (s : State) : State :=
  issueWith s t c []
    (fun s C =>
      if isSret ∧ dfl C then .fault (plainFault 0x00 w)
      else if !C.sup then .fault (plainFault 0x01 0)
      else if badLds (if dfl C then C.dlds else C.elds) then .fault (plainFault 0x00 w)
      else if C.loads.any (fun l => l.data.isNone && l.fault.isNone) then .wait s
      else
        let C := retire { C with loads := C.loads.map (fun l => { l with shadow := 0 }) }
        let C := applyModes C (fun _ => true)
        if !C.rfaults.isEmpty then .wait (setC s t c C) else .ok (setC s t c C) none)
    (fun s _ => modC s t c returnTo)

/-- SRET: level-1 return at supervisor level; ILLEGAL while DFL is 1 (R112, R114). -/
def execSret (t : TileId) (c : CtxId) (s : State) : Host.Outcome State Fault Refusal :=
  .next (doReturn t c (wordInfo (.sret t c)) true s)

/-- ERET: level-1 return, or double-fault return while DFL is 1 (R112, R114). -/
def execEret (t : TileId) (c : CtxId) (s : State) : Host.Outcome State Fault Refusal :=
  .next (doReturn t c (wordInfo (.eret t c)) false s)

end Machine
end Sys2Proof
end

