-- ==== Sys2Proof/Machine/MxDesc.lean ====
section
/-!
DEFINITION. Matrix descriptors: format combinations and cell geometry (R179, R193), fields (R198), operand ranges
(R200), and the interlock with tile DMA and issued descriptors (R201, R212).
-/

namespace Sys2Proof
namespace Machine

/-- A byte range [lo, hi). -/
abbrev Span := Nat × Nat

/-- Two ranges share a byte. -/
def spanMeets (a b : Span) : Bool := decide (a.1 < b.2) && decide (b.1 < a.2) && decide (a.1 < a.2) && decide (b.1 < b.2)

/-- Cell geometry of a format combination (08 Table 1): KP, NP, h, e, activation bits, weight bits, accumulator
bytes. -/
structure MxGeo where
  kp : Nat
  np : Nat
  h : Nat
  e : Nat
  abits : Nat
  wbits : Nat
  z : Nat
deriving DecidableEq, Repr

/-- Bits of a format code (08 Table 3): FP4 to INT8. -/
def fmtBits (f : Nat) : Nat := ([4, 6, 6, 8, 8, 16, 16, 32, 64, 4, 8] : List Nat).getD f 0

/-- FP4, FP6 or FP8. -/
def fmtSmall (f : Nat) : Bool := f ≤ 4
/-- FP8. -/
def fmtFp8 (f : Nat) : Bool := f == 3 || f == 4
/-- INT4 or INT8. -/
def fmtInt (f : Nat) : Bool := f == 9 || f == 10

/-- The row of Tables 1 and 2 that AFMT, WFMT and MODE[1:0] form (R179, R193). -/
def mxGeo (a w mode : Nat) : Option MxGeo :=
  let g := fun kp np h e z => some { kp := kp, np := np, h := h, e := e, abits := fmtBits a, wbits := fmtBits w, z := z : MxGeo }
  if mode = 0 then
    if (a = 0 ∧ w = 0) ∨ (a = 9 ∧ w = 9) then g 128 32 1 2 4
    else if fmtSmall a ∧ fmtSmall w then g 64 32 1 1 4
    else if fmtInt a ∧ fmtInt w then g 64 32 1 1 4
    else if (a = 5 ∧ w = 5) ∨ (a = 6 ∧ w = 6) then g 32 32 2 1 4
    else if a = 7 ∧ w = 7 then g 8 32 8 1 4
    else none
  else if mode = 1 then
    if (fmtFp8 a ∧ fmtFp8 w) ∨ (a = 10 ∧ w = 10) then g 128 32 1 2 2
    else if (a = 5 ∧ w = 5) ∨ (a = 6 ∧ w = 6) then g 64 32 1 1 2
    else none
  else if mode = 2 then
    if a = 8 ∧ w = 8 then g 4 16 16 1 8 else none
  else none

/-- A matrix descriptor's fields (08 Table 2). -/
structure MxDesc where
  afmt : Nat
  wfmt : Nat
  mode : Nat
  resBf16 : Bool
  accRead : Bool
  sat : Bool
  flush : Bool
  sr : Bool
  aScaled : Bool
  wScaled : Bool
  block16 : Bool
  recEn : Bool
  m : Nat
  n : Nat
  k : Nat
  seed : Nat
  aOff : Nat
  aKstride : Nat
  wOff : Nat
  cOff : Nat
  cStride : Nat
  asOff : Nat
  wsOff : Nat
  recOff : Nat
  rowMask : Nat
  colMask : Nat
deriving DecidableEq, Repr

/-- Read the fields of a descriptor's 64 bytes (R198). -/
def mxDesc (b : List Byte) : MxDesc :=
  let f := leAt b 3 1
  let mo := leAt b 2 1
  { afmt := leAt b 0 1, wfmt := leAt b 1 1, mode := mo % 4, resBf16 := mo.testBit 2
    accRead := f.testBit 0, sat := f.testBit 1, flush := f.testBit 2, sr := f.testBit 3, aScaled := f.testBit 4
    wScaled := f.testBit 5, block16 := f.testBit 6, recEn := f.testBit 7
    m := leAt b 4 2, n := leAt b 6 2, k := leAt b 8 2, seed := leAt b 0x0C 4
    aOff := leAt b 0x10 4, aKstride := leAt b 0x14 4, wOff := leAt b 0x18 4, cOff := leAt b 0x1C 4
    cStride := leAt b 0x20 4, asOff := leAt b 0x24 4, wsOff := leAt b 0x28 4, recOff := leAt b 0x2C 4
    rowMask := leAt b 0x30 8, colMask := leAt b 0x38 4 }

/-- The geometry of an accepted descriptor. -/
def mxGeoOf (d : MxDesc) : MxGeo :=
  (mxGeo d.afmt d.wfmt d.mode).getD { kp := 64, np := 32, h := 1, e := 1, abits := 8, wbits := 8, z := 4 }

/-- P_k and P_n (R194). -/
def mxPk (d : MxDesc) : Nat := ceilDiv d.k (mxGeoOf d).kp
/-- P_n (R194). -/
def mxPn (d : MxDesc) : Nat := ceilDiv d.n (mxGeoOf d).np
/-- B_v (R193). -/
def mxBv (g : MxGeo) : Nat := 64 / g.h * g.e * g.abits / 8
/-- WT (R193). -/
def mxWt (g : MxGeo) : Nat := g.kp * g.np * g.wbits / 8
/-- n_b (R200). -/
def mxNb (d : MxDesc) : Nat := (mxGeoOf d).kp / (if d.block16 then 16 else 32)
/-- V (R200). -/
def mxV (d : MxDesc) : Nat := d.m + 64 - (mxGeoOf d).h

/-- The operand ranges of Table 5 as seg3 offsets: kind of access, first byte, length, descriptor offset of the
field; activations, weights, scales, then C and the record (R200). -/
def mxRanges (d : MxDesc) : List (Nat × Nat × Nat × Nat) :=
  let g := mxGeoOf d
  let p := mxPk d * mxPn d
  [(1, d.aOff, (mxPk d - 1) * d.aKstride + mxV d * mxBv g, 0x10), (1, d.wOff, p * mxWt g, 0x18)]
    ++ (if d.aScaled then [(1, d.asOff, mxPk d * d.m * mxNb d, 0x24)] else [])
    ++ (if d.wScaled then [(1, d.wsOff, p * 32 * mxNb d, 0x28)] else [])
    ++ [(3, d.cOff, (d.m - 1) * d.cStride + d.n * g.z, 0x1C)]
    ++ (if d.recEn then [(2, d.recOff, 32, 0x2C)] else [])

/-- Local-store spans that an accepted descriptor reads, or (`out`) its C and record spans. -/
def mxSpans (e : MxEnt) (out : Bool) : List Span :=
  ((mxRanges (mxDesc e.desc)).filter (fun r => (r.1 != 1) == out)).map (fun r => (e.base + r.2.1, e.base + r.2.1 + r.2.2.1))

/-- MX_QSTAT.HEAD_WAIT: 1 for conditions 1 or 3 of R201, plus 2 for conditions 2 or 4 (R212). -/
def headWait (T : Tile) : Nat :=
  match mxHead T with
  | none => 0
  | some e =>
    let ins := mxSpans e false
    let outs := mxSpans e true
    let issued := T.mx.filter (fun m => m.issued.isSome)
    let any := fun (xs ys : List Span) => xs.any (fun x => ys.any (fun y => spanMeets x y))
    let dmaAll := T.dma.map (fun d => (d.1, d.1 + d.2.1))
    let dmaW := (T.dma.filter (fun d => d.2.2)).map (fun d => (d.1, d.1 + d.2.1))
    let c1 := any ins dmaW || issued.any (fun m => any ins (mxSpans m true))
    let c2 := any outs dmaAll || issued.any (fun m => any outs (mxSpans m false))
    b2n c1 + 2 * b2n c2

end Machine
end Sys2Proof
end

