-- ==== Sys2Proof/Machine/System.lean ====
section
/-!
DEFINITION. Segment and CSR instructions, `isync`, the fences, `halt` and `mxwait` (03 Table 12; R80, R92, R97,
R166, R171, R328).
-/

namespace Sys2Proof
namespace Machine

/-- The value a segment register takes, its RO bits kept zero (R4, R74). -/
def segVal (n : Nat) (v : Word) : Word := v &&& toW (csrRw n)

/-- SEGSET n: supervisor only; seg0 is a mode write (R80, R94, R104). -/
def execSegset (t : TileId) (c : CtxId) (n : SegId) (rs1 rs2 : Reg) (s : State) : Host.Outcome State Fault Refusal :=
  .next (issue s t c [rs1, rs2] (fun s C =>
    if !C.sup then .fault (plainFault 0x01 0)
    else
      let a := segVal (0x020 + n.val) (xget C rs1)
      let l := segVal (0x028 + n.val) (xget C rs2)
      if n = 0 then
        .ok (setC s t c { C with modeWrites := C.modeWrites ++
          [{ remain := 3, which := 1, val := a }, { remain := 3, which := 2, val := l }] }) none
      else .ok (setC s t c { C with sega := C.sega.set n a, segl := C.segl.set n l }) none))

/-- SEGNARROW: base moved up by x[rs1], limit x[rs2], permissions masked; the sum does not wrap (R80; assumption
23). Its SEG_LIMIT makes no access: TL_EINFO holds x[rs1] modulo 2^48, SEG n and ACCESS 0, HALF 0 (R80 and R119 do not
say; DESIGN CHOICE, assumption 113). -/
def execSegnarrow (t : TileId) (c : CtxId) (n : SegId) (mask : BitVec 3) (rs1 rs2 : Reg) (s : State) :
    Host.Outcome State Fault Refusal :=
  .next (issue s t c [rs1, rs2] (fun s C =>
    if n = 0 ∨ n = 2 then .fault (plainFault 0x00 (wordInfo (.segnarrow t c n mask rs1 rs2)))
    else
      let a := (xget C rs1).toNat
      let l := (xget C rs2).toNat
      if a + l > wfld C.segl[n] 47 0 then
        .fault { code := 0x04, info := toW (a % 2 ^ 48), seg := n.val, access := 0, half := false }
      else
        let old := C.sega[n]
        let w := wset (wset old 47 0 ((wfld old 47 0 + a) % 2 ^ 48)) 62 60 ((BitVec.ofNat 3 (wfld old 62 60) &&& mask).toNat)
        .ok (setC s t c { C with sega := C.sega.set n w, segl := C.segl.set n (toW l) }) none))

/-- SEGRDA: rd takes TL_SEGA(n) (R102). -/
def execSegrda (t : TileId) (c : CtxId) (n : SegId) (rd : Reg) (s : State) : Host.Outcome State Fault Refusal :=
  .next (issueReg s t c rd [] (fun C => C.sega[n]))

/-- SEGRDL: rd takes TL_SEGL(n) (R102). -/
def execSegrdl (t : TileId) (c : CtxId) (n : SegId) (rd : Reg) (s : State) : Host.Outcome State Fault Refusal :=
  .next (issueReg s t c rd [] (fun C => C.segl[n]))

/-! CSR access (R97) -/

/-- Access checks of a CSR instruction: an unlisted number is ILLEGAL; user level needs the right (R97, R104). -/
def csrFault (s : State) (t : Nat) (c : CtxId) (C : Ctx) (w : Word) (n : Nat) (write : Bool) : Option FaultInfo :=
  match csrRead s t c 0 n with
  | none => some (plainFault 0x00 w)
  | some _ =>
    if !C.sup && (csrSupOnly n || (write && !csrUserWrite n)) then some (plainFault 0x01 0) else none

/-- CSRR (R97). -/
def execCsrr (t : TileId) (c : CtxId) (rd : Reg) (csr : BitVec 12) (s : State) : Host.Outcome State Fault Refusal :=
  .next (issue s t c [rd] (fun s C =>
    orFault [csrFault s t c C (wordInfo (.csrr t c rd csr)) csr.toNat false]
      (.ok (setC s t c (xset C rd ((csrRead s t c (headWait (getT s t)) csr.toNat).getD 0))) none)))

/-- A CSR-writing instruction: rd takes the value before the write (R97). -/
def csrRmw (t : TileId) (c : CtxId) (op : CsrOp) (rd rs1 : Reg) (n : Nat) (w : Word) (s : State) : State :=
  issue s t c [rd, rs1] (fun s C =>
    orFault [csrFault s t c C w n true]
      (let old := (csrRead s t c (headWait (getT s t)) n).getD 0
       let x := xget C rs1
       .ok (setC s t c (xset (csrWrite s C op n old x) rd old)) none))

/-- CSRW (R97). -/
def execCsrw (t : TileId) (c : CtxId) (rd rs1 : Reg) (csr : BitVec 12) (s : State) : Host.Outcome State Fault Refusal :=
  .next (csrRmw t c .csrw rd rs1 csr.toNat (wordInfo (.csrw t c rd rs1 csr)) s)

/-- CSRS (R97). -/
def execCsrs (t : TileId) (c : CtxId) (rd rs1 : Reg) (csr : BitVec 12) (s : State) : Host.Outcome State Fault Refusal :=
  .next (csrRmw t c .csrs rd rs1 csr.toNat (wordInfo (.csrs t c rd rs1 csr)) s)

/-- CSRC (R97). -/
def execCsrc (t : TileId) (c : CtxId) (rd rs1 : Reg) (csr : BitVec 12) (s : State) : Host.Outcome State Fault Refusal :=
  .next (csrRmw t c .csrc rd rs1 csr.toNat (wordInfo (.csrc t c rd rs1 csr)) s)

/-- TGLIVE_WRITE: a write of TL_TGLIVE0 or TL_TGLIVE1; while PARKED each 0 ends its thread (R166, R167). -/
def execTgliveWrite (t : TileId) (c : CtxId) (op : CsrOp) (rd rs1 : Reg) (h : Bool) (s : State) :
    Host.Outcome State Fault Refusal :=
  .next (csrRmw t c op rd rs1 (if h then 0x0D2 else 0x0D1) (wordInfo (.tgliveWrite t c op rd rs1 h)) s)

/-! `isync` and fences -/

/-- A lane-engine load, store, atomic or `vmacm`. -/
def laneMem (i : Instr) : Bool :=
  match i with
  | .vload .. => true | .vstore .. => true | .vamo .. => true | .vmacm .. => true | _ => false

/-- The work of a fence (06 Table 5): kind 0 `fence.g`, 1 `fence.b`, 2 `fence.d`, 3 `fence.s`. -/
def fenceDone (T : Tile) (c : CtxId) (kind ownId : Nat) : Bool :=
  let C := T.ctx[c]
  let mine := fun (who : List StoreBy) => who.any (fun w => w.ctx == c.val)
  let scope := fun (a : Nat) => kind == 3 || !isFabric a || a / 2 ^ 48 % 4096 == ownId
  C.loads.all (fun l => l.data.isSome || l.fault.isSome)
    && !(T.lane.any (fun e => e.ctx == c.val && laneMem e.ins))
    && (kind == 0 || !(T.mb.any (fun e => mine e.who)))
    && (kind ≤ 1 || !(T.writes.any (fun w => mine w.who && scope w.addr)))

/-- The ranges of the segments that a mask names, seg3 left out, as they stand at the fence's issue (R171). -/
def fenceRanges (s : State) (C : Ctx) (mask : Nat) : List (Nat × Nat) :=
  ((bitsOf 8 mask).filter (fun n => n != 3)).map (fun n =>
    let seg : SegId := cix n
    (fabAddr s C seg 0, wfld C.segl[seg] 47 0))

/-- Clean-line invalidation of the named segments other than seg3 (R171). -/
def fenceInvalidate (s : State) (T : Tile) (C : Ctx) (mask : Nat) : Tile :=
  (fenceRanges s C mask).foldl (fun T r => dropRange T r.1 r.2) T

/-- What a fence whose work is still outstanding holds back (R171): an instruction that accesses memory, and a further
fence (assumption 24), waits at IS until the work is done; its invalidation is then performed, and the instruction goes
on. -/
def afterFence (t : Nat) (c : CtxId) (body : State → Ctx → IssueRes) (s : State) (C : Ctx) : IssueRes :=
  match C.fence with
  | none => body s C
  | some f =>
    if fenceDone (getT s t) c f.kind (ownId s) then
      let s := endFence s t c
      body s (getC s t c)
    else .wait s

/-- Issue an instruction that accesses memory: behind a fence it waits for the fence's work (R171). -/
def issueMem (s : State) (t : Nat) (c : CtxId) (regs : List Reg) (body : State → Ctx → IssueRes) : State :=
  issue s t c regs (afterFence t c body)

/-- A fence: at its issue the open entries commit (R225). Where its work is done at once its invalidation follows; else,
outside deterministic mode, it completes and its work holds back later memory accesses, and in deterministic mode it
keeps its context's slots until the work is done (R171). `hold` keeps it at IS in both modes. -/
def fenceIssue (t : TileId) (c : CtxId) (kind : Nat) (regs : List Reg) (mask : Ctx → Nat) (hold : Bool) (after : Ctx → Ctx)
    (pre : Ctx → Option FaultInfo) (s : State) : State :=
  issue s t c regs (fun s C =>
    orFault [pre C]
      (afterFence t c (fun s C =>
        let T := getT s t
        let T := if kind != 0 && !C.fenceOn then mbCommit T (fun _ => true) else T
        if fenceDone T c kind (ownId s) then
          let T := fenceInvalidate s T C (mask C)
          .ok (setT s t (tileSetC (fenceStores T c) c (after C))) none
        else if hold || T.det then .wait (setT s t (tileSetC T c { C with fenceOn := true }))
        else .ok (setT s t (tileSetC T c { C with fence := some { kind := kind, ranges := fenceRanges s C (mask C) } })) none) s C))

/-- ISYNC: every L1I line of the tile is invalid, and fetched instructions are discarded; fills on their way install
nowhere (R92, R231). -/
def execIsync (t : TileId) (c : CtxId) (s : State) : Host.Outcome State Fault Refusal :=
  .next (issueMem s t c [] (fun s _ =>
    .ok (modT s t (fun T => { T with l1i := [], reads := T.reads.map (fun r => if r.l1i then { r with stale := true } else r) })) none))

/-- FENCE_G (R171). -/
def execFenceG (t : TileId) (c : CtxId) (s : State) : Host.Outcome State Fault Refusal :=
  .next (fenceIssue t c 0 [] (fun _ => 0) false id (fun _ => none) s)

/-- FENCE_B (R171). -/
def execFenceB (t : TileId) (c : CtxId) (s : State) : Host.Outcome State Fault Refusal :=
  .next (fenceIssue t c 1 [] (fun _ => 0) false id (fun _ => none) s)

/-- FENCE_D: bit n of x[rs1] names segment n (R171). -/
def execFenceD (t : TileId) (c : CtxId) (rs1 : Reg) (s : State) : Host.Outcome State Fault Refusal :=
  .next (fenceIssue t c 2 [rs1] (fun C => (xget C rs1).toNat % 256) false id (fun _ => none) s)

/-- FENCE_S (R171). -/
def execFenceS (t : TileId) (c : CtxId) (rs1 : Reg) (s : State) : Host.Outcome State Fault Refusal :=
  .next (fenceIssue t c 3 [rs1] (fun C => (xget C rs1).toNat % 256) false id (fun _ => none) s)

/-! `halt` and `mxwait` -/

/-- The launch ends on its tile once every resident context has halted and every descriptor accepted has completed
(R211, R328). -/
def launchCheck (s : State) (t : Nat) : State :=
  let T := getT s t
  let k := wfld T.occ 3 0
  if T.launch.isSome ∧ T.launchEnd.isNone ∧ T.mx.isEmpty ∧
      (List.range k).all (fun i => T.ctx[cix i].run == .halted) then
    setT s t { T with launchEnd := some 0, det := false }
  else s

/-- HALT: the work of `fence.d` with mask 0, then the context ends its launch (R328). -/
def execHalt (t : TileId) (c : CtxId) (s : State) : Host.Outcome State Fault Refusal :=
  .next (launchCheck (fenceIssue t c 2 [] (fun _ => 0) true (fun C => { C with run := .halted })
    (fun C => uniformFault C (.halt t c)) s) t)

/-- (int32_t)(DONE - x) ≥ 0 (R102). -/
def mxReached (C : Ctx) (v : Nat) : Bool := decide (0 ≤ (C.mxDone - BitVec.ofNat 32 v).toInt)

/-- MXWAIT: completes if DONE has reached the value, else the context sleeps (R102). -/
def execMxwait (t : TileId) (c : CtxId) (rs1 : Reg) (s : State) : Host.Outcome State Fault Refusal :=
  .next (issue s t c [rs1] (fun s C =>
    let v := (xget C rs1).toNat
    if mxReached C v then .ok s none
    else .wait (setC s t c { C with run := .inMxwait (v % 2 ^ 32) })))

/-- A context that sleeps in `mxwait` completes it once DONE has reached its value. -/
def mxwaitWake (s : State) (t : Nat) (c : CtxId) : State :=
  let C := getC s t c
  match C.run with
  | .inMxwait v => if mxReached C v then finish (setC s t c { C with run := .running }) t c none else s
  | _ => s

end Machine
end Sys2Proof
end

