-- ==== Sys2Proof/Machine/MemInstr.lean ====
section
/-!
DEFINITION. The scalar memory instructions (03 Table 10, R73, R79 to R83, R90, R91; 09 R219, R224 to R230). A load,
atomic or store outside seg3 starts here and is carried on by the event commands of the memory hierarchy.
-/

namespace Sys2Proof
namespace Machine

/-- Bytes of an access size (R100). -/
def sizeBytes (z : Size) : Nat := match z with | .b => 1 | .h => 2 | .w => 4 | .d => 8

/-- Size and sign extension of a load (03 Table 8). -/
def loadForm (op : LoadOp) : Nat × Bool :=
  match op with
  | .lb => (1, true) | .lh => (2, true) | .lw => (4, true) | .ld => (8, true)
  | .lbu => (1, false) | .lhu => (2, false) | .lwu => (4, false)

/-- Base register plus the sign-extended displacement, in 64 bits (R75). -/
def memOffset (C : Ctx) (rs1 : Reg) (imm : BitVec 12) : Nat := (xget C rs1 + sextW 12 imm.toNat).toNat

/-- Tile store window address of a local-store offset (R37). -/
def windowAddr (t o : Nat) : Nat := 0x10000000000 + t * 0x200000 + o

/-- Local-store offset of the lowest word of n bytes at o that is poisoned or about to be found so (R219). -/
def poisonWord (T : Tile) (o n : Nat) : Nat :=
  ((T.poison ++ T.latent).foldl (fun m w => if o / 8 ≤ w ∧ w ≤ (o + n - 1) / 8 ∧ w < m then w else m) ((o + n) / 8 + 1)) * 8

/-- POISON of a seg3 access (R219). -/
def lsFault (T : Tile) (t seq pc o n access : Nat) : RespFault :=
  { seq := seq, code := 0x10, pc := pc, addr := windowAddr t (poisonWord T o n), seg := 3, access := access
    half := false, elem := none }

/-- The result a loaded number gives (R102). -/
def loadValue (n : Nat) (signed : Bool) (v : Nat) : Word := if signed then sextW (8 * n) v else toW v

/-- The new contents an atomic leaves: operation, width in bytes, old value, operand (R102, R162). -/
def amoNew (op : AmoOp) (n old src : Nat) : Nat :=
  let w := 8 * n
  let a := old % 2 ^ w
  let b := src % 2 ^ w
  match op with
  | .add => (a + b) % 2 ^ w
  | .and => a &&& b
  | .or => a ||| b
  | .xor => a ^^^ b
  | .min => if sInt w a ≤ sInt w b then a else b
  | .max => if sInt w a ≤ sInt w b then b else a
  | .minu => min a b
  | .maxu => max a b
  | .swap => b

/-- Old value of an atomic to its new contents, none where nothing is written (R102). -/
def atomicNew (k : LoadKind) (old : Nat) : Option Nat :=
  match k with
  | .amo op n src => some (amoNew op n old src)
  | .cas n cmp src => if old % 2 ^ (8 * n) = cmp % 2 ^ (8 * n) then some (src % 2 ^ (8 * n)) else none
  | _ => none

/-- Width in bytes of a pending access. -/
def kindBytes (k : LoadKind) : Nat :=
  match k with | .load n _ => n | .amo _ n _ => n | .cas n _ _ => n | .sched => 8

/-- The register value of a pending access's bytes (R102). -/
def kindValue (k : LoadKind) (v : Nat) : Word :=
  match k with
  | .load n sg => loadValue n sg v
  | .amo _ n _ => sextW (8 * n) v
  | .cas n _ _ => sextW (8 * n) v
  | .sched => toW v

/-- Shadow with which a load or atomic enters: its own completion counts it to two; x0 has no shadow (R81, R83). -/
def freshShadow (rd : Reg) : Nat := if rd = 0 then 0 else 3

/-- Loads and atomics that count toward the sixteen of R73. -/
def pendingCount (C : Ctx) : Nat :=
  (C.loads.filter (fun l => l.data.isNone && l.fault.isNone)).length

/-- Append a pending access to a context. -/
def addLoad (T : Tile) (c : CtxId) (l : LoadEnt) : Tile :=
  let C := T.ctx[c]
  tileSetC T c { C with loads := C.loads ++ [l] }

/-- A store into a range of an issued descriptor that has not completed (R202): the descriptor is spoiled and the
store's bytes become unpredictable. -/
def mxSpoil (s : State) (t o n : Nat) : State :=
  let T := getT s t
  let hit := fun (e : MxEnt) => e.issued.isSome && (mxSpans e false ++ mxSpans e true).any (fun x => spanMeets x (o, o + n))
  if T.mx.any hit then
    let T := { T with mx := T.mx.map (fun e => if hit e then { e with spoil := true } else e)
                      store := stFreeN T.store s.draws o n }
    { setT s t T with draws := s.draws + 1 }
  else s

/-- Bytes that every descriptor of the tile sees as they stand (R203). -/
def allSee (T : Tile) (hit : Nat → Bool) : Tile :=
  { T with unfenced := T.unfenced.filter (fun u => !hit u.at_)
           mx := T.mx.map (fun e => { e with hidden := e.hidden.filter (fun x => !hit x.1) }) }

/-- Write local-store bytes from outside the tile's contexts (R202, R218). -/
def lsStore (s : State) (t o : Nat) (bs : List Byte) : State :=
  mxSpoil (modT (lsWrite s t o bs) t (fun T => allSee T (fun x => decide (o ≤ x) && decide (x < o + bs.length)))) t o bs.length

/-- Context c is about to write n bytes at o: a descriptor that waits to issue goes on reading the old bytes where another
context submitted it, and sees the new ones where c did; one accepted before c's fence will not see them unless c submits
it (R203). -/
def noteStore (T : Tile) (c : CtxId) (o n : Nat) : Tile :=
  let hit := fun (x : Nat) => decide (o ≤ x) && decide (x < o + n)
  let olds := (List.range n).map (fun i => (o + i, stRead T.store (o + i)))
  let cleared := T.unfenced.map (fun u => if hit u.at_ then { u with mask := u.mask - (if u.mask.testBit c.val then 2 ^ c.val else 0) } else u)
  let fresh := olds.filter (fun x => ((T.unfenced.filter (fun u => u.at_ == x.1)).getLast?).all (fun u => u.by_ != c.val))
  { T with
    unfenced := cleared.filter (fun u => u.mask != 0)
      ++ fresh.map (fun x => { by_ := c.val, at_ := x.1, old := x.2, mask := 255 - 2 ^ c.val })
    mx := T.mx.map (fun e =>
      if e.issued.isSome then e
      else if e.ctx = c.val then { e with hidden := e.hidden.filter (fun x => !hit x.1) }
      else { e with hidden := e.hidden ++ olds.filter (fun x => (mxSpans e false ++ mxSpans e true).any (fun r => spanMeets r (x.1, x.1 + 1))
                                            && !e.hidden.any (fun h => h.1 == x.1)) }) }

/-- What a descriptor that context c submits does not see: the bytes that other contexts have written and not fenced, as they
were before (R203). A context whose fence waits has fenced them where the work that it waits for is done. -/
def unseen (s : State) (t : Nat) (c : CtxId) (spans : List Span) : List (Nat × Byte) :=
  let T := getT s t
  let open_ := T.unfenced.filter (fun u => u.mask.testBit c.val && spans.any (fun r => spanMeets r (u.at_, u.at_ + 1))
    && !((T.ctx[(cix u.by_ : CtxId)].fence).any (fun f => fenceDone T (cix u.by_) f.kind (ownId s))))
  open_.foldl (fun l u => if l.any (fun h => h.1 == u.at_) then l else l ++ [(u.at_, u.old)]) []

/-- Write local-store bytes for a context (R202, R203, R218). -/
def ctxStore (s : State) (t : Nat) (c : CtxId) (o : Nat) (bs : List Byte) : State :=
  mxSpoil (lsWrite (modT s t (fun T => noteStore T c o bs.length)) t o bs) t o bs.length

/-- Read n bytes of local store through seg3 at segment offset o, half by half (R77, R79). -/
def lsReadHalves (s : State) (t : Nat) (C : Ctx) (hs : List (Nat × Nat)) : List Byte × Bool × State :=
  hs.foldl (fun (a : List Byte × Bool × State) h =>
    let r := lsRead a.2.2 t (segAddr C 3 h.1) h.2
    (a.1 ++ r.1, a.2.1 || r.2.1, r.2.2)) ([], false, s)

/-- Start the service of a load's pieces: bytes of open entries are forwarded, committed entries and earlier accesses of
the same bytes that still wait are waited for, and what remains is served (R172, R221, R226). -/
def startLoad (s : State) (t : Nat) (c : CtxId) (C : Ctx) (seg : SegId) (rd : Reg) (kind : LoadKind) (ps : List Piece) :
    IssueRes :=
  let T := getT s t
  if pendingCount C ≥ 16 then .wait s
  else
    let seq := T.seq + 1
    let ws := mbWaits T ps
    let held := heldBack T c seq ps
    let ps := ps.map (forward T)
    let T := { T with seq := seq }
    let r := if ws.isEmpty && !held then
        servePieces T (.load c.val seq) ps (hintOf C seg) (permOk C.sega[seg] 2) (!T.det) (prefetchOk s C seg)
      else (T, ps)
    if outstanding r.1 > 256 then .wait s
    else
      .ok (setT s t (addLoad r.1 c
        { seq := seq, rd := rd.val, shadow := freshShadow rd, kind := kind, pc := C.pc, seg := seg.val, pieces := r.2
          waits := ws, data := none, fault := none })) none

/-- LOAD (R79, R81, R102). -/
def execLoad (t : TileId) (c : CtxId) (op : LoadOp) (rd rs1 : Reg) (seg : Option SegId) (imm : BitVec 12) (s : State) :
    Host.Outcome State Fault Refusal :=
  .next (issueMem s t c [rd, rs1] (fun s C =>
    let (n, sg) := loadForm op
    let o := memOffset C rs1 imm
    let sgm := useSeg seg rs1
    let hs := halves o n
    orFault [checkAccess s t C sgm 1 hs]
      (if sgm = 3 then
        let T := getT s t
        let r := lsReadHalves s t C hs
        let seq := T.seq + 1
        let l : LoadEnt := { seq := seq, rd := rd.val, shadow := freshShadow rd, kind := .load n sg, pc := C.pc
                             seg := 3, pieces := [], waits := []
                             data := if r.2.1 then none else some (loadValue n sg (ofLE r.1))
                             fault := if r.2.1 then some (lsFault T t seq C.pc (segAddr C 3 o) n 1) else none }
        .ok (modT r.2.2 t (fun T => addLoad { T with seq := seq } c l)) none
      else startLoad s t c C sgm rd (.load n sg) (hs.map (fun h => pieceNew (fabAddr s C sgm h.1) h.2 0)))))

/-- A scalar store resets the spin count of its group (R161). -/
def storeSpin (s : State) (t : Nat) (c : CtxId) : State :=
  modC s t c (fun C => if inGroup C then { C with tgspin := 0 } else C)

/-- The stores of n bytes at address a enter the merge buffer sector by sector; none where no entry is free (R224). -/
def mbStore (T : Tile) (a : Nat) (bs : List Byte) (hint : Nat) (who : StoreBy) : Option Tile :=
  (sectorsOf a bs.length).foldl (fun (m : Option Tile) sec =>
    match m with
    | some T => mbEnter T sec (sectorPart a bs sec) hint who
    | none => none) (some T)

/-- STORE (R79, R91, R102, R224). -/
def execStore (t : TileId) (c : CtxId) (sz : Size) (rs rs1 : Reg) (seg : Option SegId) (imm : BitVec 12) (s : State) :
    Host.Outcome State Fault Refusal :=
  .next (issueMem s t c [rs, rs1] (fun s C =>
    let n := sizeBytes sz
    let o := memOffset C rs1 imm
    let sgm := useSeg seg rs1
    let hs := halves o n
    let bytes := toLE n (xget C rs).toNat
    let part := fun (h : Nat × Nat) => (bytes.drop (if h.1 = o then 0 else n - h.2)).take h.2
    orFault [checkAccess s t C sgm 2 hs]
      (if sgm = 3 then
        let s := hs.foldl (fun s h => ctxStore s t c (segAddr C 3 h.1) (part h)) s
        .ok (storeSpin (syncAfter s t C sgm o n) t c) none
      else
        let T := getT s t
        let r := hs.foldl (fun (m : Option Tile) h =>
          let a := fabAddr s C sgm h.1
          m.bind (fun T' => mbStore T' a (part h) (hintOf C sgm)
            { ctx := c.val, pc := C.pc, seg := sgm.val, seq := T.seq + 1, addr := a, half := h.1 != o }))
          (some { T with seq := T.seq + 1 })
        match r with
        | some T' => .ok (storeSpin (syncAfter (setT s t T') t C sgm o n) t c) none
        | none => .wait (setT s t (mbCommitOldest T)))))

/-- ALIGN of an access that is never split (R79). -/
def alignCheck (seg : SegId) (o n access : Nat) : Option FaultInfo :=
  if o % n = 0 then none
  else some { code := 0x06, info := toW (o % 2 ^ 48), seg := seg.val, access := access, half := false }

/-- Send an atomic request to its point of coherence: the sectors it touches leave the L1D and the tile cache (R223). -/
def sendAtomic (T : Tile) (owner : ReadFor) (a n hint : Nat) (kind : LoadKind) : Tile :=
  let T := staleReads (dropCopies T a n) a n
  { T with
    seq := T.seq + 1
    reads := T.reads ++ [{ seq := T.seq + 1, owner := owner, addr := a, n := n, hint := hint, w := true
                           atomic := some kind, l1d := false, l1i := false, tc := false, answer := none, stale := false, elem := none }] }

/-- An atomic at offset x[rs1]: at once in local store, else at its point of coherence after the merge-buffer entries
of its sector have drained (R102, R223, R225). -/
def atomicIssue (t : TileId) (c : CtxId) (rd rs1 rs2 : Reg) (seg : Option SegId) (kind : Ctx → LoadKind) (s : State) :
    State :=
  issueMem s t c [rd, rs1, rs2] (fun s C =>
    let k := kind C
    let n := kindBytes k
    let o := (xget C rs1).toNat
    let sgm := useSeg seg rs1
    orFault [alignCheck sgm o n 3, checkAccess s t C sgm 3 [(o, n)]]
      (if sgm = 3 then
        let T := getT s t
        let a := segAddr C 3 o
        let r := lsRead s t a n
        let old := ofLE r.1
        let seq := T.seq + 1
        let l : LoadEnt := { seq := seq, rd := rd.val, shadow := freshShadow rd, kind := k, pc := C.pc, seg := 3
                             pieces := [], waits := []
                             data := if r.2.1 then none else some (kindValue k old)
                             fault := if r.2.1 then some (lsFault T t seq C.pc a n 3) else none }
        let s := modT r.2.2 t (fun T => addLoad { T with seq := seq } c l)
        if r.2.1 then .ok s none
        else
          match atomicNew k old with
          | some v => .ok (syncAfter (ctxStore s t c a (toLE n v)) t C sgm o n) none
          | none => .ok (syncAfter s t C sgm o n) none
      else if pendingCount C ≥ 16 then .wait s
      else
        let a := fabAddr s C sgm o
        let T := mbCommit (getT s t) (fun e => mbTouches e (a / 32 * 32) 32)
        let ws := (T.mb.filter (fun e => mbTouches e (a / 32 * 32) 32)).map (fun e => e.seq)
        let seq := T.seq + 1
        let T := { T with seq := seq }
        let T := if ws.isEmpty then sendAtomic T (.load c.val seq) a n (hintOf C sgm) k else dropCopies T a n
        if outstanding T > 256 then .wait s
        else
          .ok (syncAfter (setT s t (addLoad T c
            { seq := seq, rd := rd.val, shadow := freshShadow rd, kind := k, pc := C.pc, seg := sgm.val
              pieces := [pieceNew a n 0], waits := ws, data := none, fault := none })) t C sgm o n) none))

/-- AMO (R102). -/
def execAmo (t : TileId) (c : CtxId) (op : AmoOp) (dw : Bool) (rd rs1 rs2 : Reg) (seg : Option SegId) (s : State) :
    Host.Outcome State Fault Refusal :=
  .next (atomicIssue t c rd rs1 rs2 seg (fun C => .amo op (if dw then 8 else 4) (xget C rs2).toNat) s)

/-- AMOCAS: the compare value is x[rd] before the instruction (R102). -/
def execAmocas (t : TileId) (c : CtxId) (dw : Bool) (rd rs1 rs2 : Reg) (seg : Option SegId) (s : State) :
    Host.Outcome State Fault Refusal :=
  .next (atomicIssue t c rd rs1 rs2 seg
    (fun C => .cas (if dw then 8 else 4) (xget C rd).toNat (xget C rs2).toNat) s)

/-- DZL: zero the 128-byte line that contains the address, without a fetch; the entries within the line and its own
commit in one cycle, in allocation order (R225, R228). -/
def execDzl (t : TileId) (c : CtxId) (rs1 : Reg) (seg : Option SegId) (s : State) : Host.Outcome State Fault Refusal :=
  .next (issueMem s t c [rs1] (fun s C =>
    let o := (xget C rs1).toNat
    let sgm := useSeg seg rs1
    let o0 := (xget C rs1 - toW (segAddr C sgm o % 128)).toNat
    orFault [checkAccess s t C sgm 2 [(o0, 128)]]
      (let z := List.replicate 128 (0#8 : Byte)
       if sgm = 3 then .ok (syncAfter (ctxStore s t c (segAddr C 3 o0) z) t C sgm o0 128) none
       else
         let a := fabAddr s C sgm o0
         let T := getT s t
         if T.mb.length ≥ 16 then .wait (setT s t (mbCommitOldest (mbCommit T (fun e => mbTouches e a 128))))
         else
           let e : MBEnt := { seq := T.seq + 1, addr := a, bytes := z.map some, hint := hintOf C sgm
                              cseq := 0, draining := false, dzl := true
                              who := [{ ctx := c.val, pc := C.pc, seg := sgm.val, seq := T.seq + 1, addr := a, half := false }] }
           let T := mbAlloc { T with l1d := (sectorsOf a 128).foldl (fun m k => cacheDrop m 64 k) T.l1d } e
             (fun x => mbTouches x a 128)
           .ok (syncAfter (setT s t T) t C sgm o0 128) none)))

/-! Range operations -/

/-- Numbers of the writes and atomics a `rclean` waits for (09 Table 4): merge-buffer entries, writes on their way,
atomics, and vector stores and atomics of the lane engine that have not finished. -/
def rangeWaits (T : Tile) (a n : Nat) : List Nat :=
  let hitM := fun (addr : Nat) (bs : List (Option Byte)) => (List.range bs.length).any (fun i =>
    ((bs[i]?).join).isSome && a ≤ addr + i && addr + i < a + n)
  ((T.mb.filter (fun e => hitM e.addr e.bytes)).map (fun e => e.seq))
    ++ ((T.writes.filter (fun w => hitM w.addr w.bytes)).map (fun w => w.seq))
    ++ ((T.reads.filter (fun r => r.atomic.isSome && r.addr < a + n && a < r.addr + r.n)).map (fun r => r.seq))
    ++ ((T.ctx.toList.zipIdx.flatMap (fun x => x.1.loads.filter (fun l => atomicUnsent T x.2 l
          && l.pieces.any (fun p => p.addr < a + n && a < p.addr + p.n)))).map (fun l => l.seq))
    ++ ((T.lane.filter (fun e => match e.ins with | .vstore .. => true | .vamo .. => true | _ => false)).map (fun e => e.seq))

/-- Accept a range operation: the whole range is checked, the operation waits while four are queued (R229). -/
def rangeIssue (t : TileId) (c : CtxId) (kind : Nat) (rs1 rs2 : Reg) (seg : Option SegId) (s : State) : State :=
  issueMem s t c [rs1, rs2] (fun s C =>
    let o := (xget C rs1).toNat
    let n := (xget C rs2).toNat
    let sgm := useSeg seg rs1
    let access := if kind = 1 then 1 else 2
    match segCheck C sgm o n access with
    | some code => .fault { code := code, info := toW (o % 2 ^ 48), seg := sgm.val, access := access, half := false }
    | none =>
      let T := getT s t
      if T.rangeQ.length ≥ 4 then .wait s
      else
        let a := fabAddr s C sgm o
        let T := if sgm = 3 ∨ n = 0 then T else mbCommit T (fun e => mbTouches e a n)
        let ws := if kind = 2 ∨ sgm = 3 ∨ n = 0 then [] else rangeWaits T a n
        let T := { T with rangeQ := T.rangeQ ++
          [{ ctx := c.val, kind := kind, seg3 := sgm == 3, addr := a, len := n, waits := ws, started := false }] }
        .ok (setT s t (tileSetC T c { C with rgIssued := C.rgIssued + 1 })) none)

/-- RCLEAN (R229). -/
def execRclean (t : TileId) (c : CtxId) (rs1 rs2 : Reg) (seg : Option SegId) (s : State) :
    Host.Outcome State Fault Refusal :=
  .next (rangeIssue t c 1 rs1 rs2 seg s)

/-- RINVAL (R229). -/
def execRinval (t : TileId) (c : CtxId) (rs1 rs2 : Reg) (seg : Option SegId) (s : State) :
    Host.Outcome State Fault Refusal :=
  .next (rangeIssue t c 2 rs1 rs2 seg s)

/-- RCINVAL (R229). -/
def execRcinval (t : TileId) (c : CtxId) (rs1 rs2 : Reg) (seg : Option SegId) (s : State) :
    Host.Outcome State Fault Refusal :=
  .next (rangeIssue t c 3 rs1 rs2 seg s)

/-! Dual-fetch multiply-accumulate -/

/-- An element extended signed or unsigned to an integer (R90). -/
def macElem (n : Nat) (uns : Bool) (v : Nat) : Int := if uns then ((v % 2 ^ (8 * n) : Nat) : Int) else sInt (8 * n) v

/-- A due response fault of an instruction without a shadow (R109, R219). -/
def dueFault (s : State) (t : Nat) (c : CtxId) (f : RespFault) : State :=
  modC s t c (fun C => { C with rfaults := C.rfaults ++ [f] })

/-- MACM (R90). -/
def execMacm (t : TileId) (c : CtxId) (sz : Size) (uns sub : Bool) (rs1 rs2 : Reg) (sx sy : BitVec 6) (s : State) :
    Host.Outcome State Fault Refusal :=
  .next (issueMem s t c [rs1, rs2] (fun s C =>
    let n := sizeBytes sz
    let a := (xget C rs1).toNat
    let b := (xget C rs2).toNat
    orFault [alignCheck 3 a n 1, alignCheck 3 b n 1, checkAccess s t C 3 1 [(a, n)], checkAccess s t C 3 1 [(b, n)]]
      (let T := getT s t
       let ra := lsRead s t (segAddr C 3 a) n
       let rb := lsRead ra.2.2 t (segAddr C 3 b) n
       if ra.2.1 || rb.2.1 then
         let seq := T.seq + 1
         let f := if ra.2.1 then lsFault T t seq C.pc (segAddr C 3 a) n 1
           else lsFault T t seq C.pc (segAddr C 3 b) n 1
         .ok (dueFault (modT rb.2.2 t (fun T => { T with seq := seq })) t c f) none
       else
         let p := macElem n uns (ofLE ra.1) * macElem n uns (ofLE rb.1)
         let acc : BitVec 128 := if sub then C.acc - BitVec.ofInt 128 p else C.acc + BitVec.ofInt 128 p
         let C := { C with acc := acc }
         let C := xset C rs1 (xget C rs1 + sextW 6 sx.toNat * toW n)
         let C := xset C rs2 (xget C rs2 + sextW 6 sy.toNat * toW n)
         .ok (setC rb.2.2 t c C) none)))

end Machine
end Sys2Proof
end

