-- ==== Sys2Proof/Machine/Home.lean ====
section
/-!
DEFINITION. Access at the point of coherence by any requester: a tile, a link request, the host's BAR2 window, a tile
DMA engine or the service runtime (R39, R170, R233, R243, R269, R306, R326).
-/

namespace Sys2Proof
namespace Machine

/-- What a read at its point of coherence answers: 0 OK, 1 ADDR_ERROR, 2 FENCED (R267); the bytes, and for each byte
whether its sector or word is poisoned. -/
structure CohRd where
  st : Nat
  bytes : List Byte
  pois : List Bool
  s : State

/-- The lines of 128 bytes that n bytes at a touch, as (address, length). -/
def linesOf (a n : Nat) : List (Nat × Nat) :=
  if n = 0 then []
  else (List.range ((a + n - 1) / 128 + 1 - a / 128)).map (fun i =>
    let lo := max a ((a / 128 + i) * 128)
    (lo, min (a + n) ((a / 128 + i + 1) * 128) - lo))

/-- Status of an access to n bytes at a that no tile checks: 0, 1 ADDR_ERROR or 2 FENCED, over the lines it touches in
address order, ADDR_ERROR first (R39, R269). -/
def cohStatus (s : State) (a n : Nat) : Nat :=
  let ps := (linesOf a n).map (fun l => placeOf s l.1)
  if ps.any (fun p => match p with | .hole => true | .ctrl _ _ => true | _ => false)
    || (match placeOf s a with | .window g o => o + n > (getT s g).lsBytes | _ => false) then 1
  else if ps.any (placeFenced s) then 2
  else 0

/-- Read the bytes of one line at their point of coherence; none while it waits for tokens (R248). An access to a tile store
window wakes its tile (R38, R365). -/
def cohReadLine (s : State) (a n hint : Nat) (w : Bool) (errs : List SymErr) : Option (List Byte × List Bool × State) :=
  match placeOf s a with
  | .mem d off =>
    match homeRead s d off a n hint w errs with
    | none => none
    | some (bs, _, s') => some (bs, (List.range n).map (fun i => s'.mpoison.contains ((a + i) / 32)), s')
  | .window g o =>
    let T0 := getT s g
    let r := lsRead (wakeTile s g) g o n
    some (r.1, (List.range n).map (fun i => (T0.poison ++ T0.latent).contains ((o + i) / 8)), r.2.2)
  | _ => some ([], [], s)

/-- Read n bytes at a, line by line in ascending order; none while some line waits for tokens. -/
def cohRead (s : State) (a n hint : Nat) (w : Bool) (errs : List SymErr) : Option CohRd :=
  let st := cohStatus s a n
  if st ≠ 0 then some { st := st, bytes := [], pois := [], s := s }
  else
    (linesOf a n).foldl (fun acc l => acc.bind (fun r =>
      (cohReadLine r.s l.1 l.2 hint w errs).map (fun x =>
        { st := 0, bytes := r.bytes ++ x.1, pois := r.pois ++ x.2.1, s := x.2.2 })))
      (some { st := 0, bytes := [], pois := [], s := s })

/-- The runs of consecutive bytes of a masked write, as (offset, bytes). -/
def byteRuns : Nat → List (Option Byte) → List (Nat × List Byte)
  | _, [] => []
  | o, none :: r => byteRuns (o + 1) r
  | o, some b :: r =>
    match byteRuns (o + 1) r with
    | (q, bs) :: rest => if q = o + 1 then (o, b :: bs) :: rest else (o, [b]) :: (q, bs) :: rest
    | [] => [(o, [b])]

/-- Write local-store bytes from outside the tile, run by run; the words poisoned bytes fall in become poisoned, others
fully written lose their poison (R218, R219). -/
def windowWrite (s : State) (g o : Nat) (bs : List (Option Byte)) (pois : List Bool) : State :=
  let s := (byteRuns 0 bs).foldl (fun s r => lsStore s g (o + r.1) r.2) s
  (List.range bs.length).foldl (fun s i => if pois.getD i false then lsPoison s g (o + i) 1 else s) s

/-- Write masked bytes within one line at their point of coherence; `pois` marks bytes that arrive poisoned. -/
def cohWriteLine (s : State) (a : Nat) (bs : List (Option Byte)) (pois : List Bool) (hint : Nat) (errs : List SymErr) :
    Option State :=
  match placeOf s a with
  | .mem d off =>
    let secs := (List.range 4).filter (fun i => (List.range bs.length).any (fun b => pois.getD b false && (a + b) / 32 % 4 == i))
    homeWrite s d off a bs hint secs errs
  | .window g o => some (windowWrite (wakeTile s g) g o bs pois)
  | _ => some s

/-- Write masked bytes at a, line by line in ascending order: the status, and none while a line waits for tokens. -/
def cohWrite (s : State) (a : Nat) (bs : List (Option Byte)) (pois : List Bool) (hint : Nat) (errs : List SymErr) :
    Option (Nat × State) :=
  let st := cohStatus s a bs.length
  if st ≠ 0 then some (st, s)
  else
    ((linesOf a bs.length).foldl (fun acc l => acc.bind (fun s =>
      cohWriteLine s l.1 ((bs.drop (l.1 - a)).take l.2) ((pois.drop (l.1 - a)).take l.2) hint errs)) (some s)).map
      (fun s => (0, s))

/-- Write plain bytes (R12). -/
def cohWriteB (s : State) (a : Nat) (bs : List Byte) (hint : Nat) (errs : List SymErr) : Option (Nat × State) :=
  cohWrite s a (bs.map some) (bs.map (fun _ => false)) hint errs

/-- An atomic of a width at its point of coherence: status, old value, poison (R102, R223, R243). The new value of a
poisoned sector is written and its poison stays. -/
def cohAtomic (s : State) (a : Nat) (k : LoadKind) (hint : Nat) (errs : List SymErr) :
    Option (Nat × List Byte × Bool × State) :=
  let n := kindBytes k
  match cohRead s a n hint true errs with
  | none => none
  | some r =>
    if r.st ≠ 0 then some (r.st, [], false, r.s)
    else
      let p := r.pois.any id
      match atomicNew k (ofLE r.bytes) with
      | none => some (0, r.bytes, p, r.s)
      | some v =>
        match cohWrite r.s a ((toLE n v).map some) (List.replicate n p) hint [] with
        | none => none
        | some (_, s) => some (0, r.bytes, p, s)

end Machine
end Sys2Proof
end

