-- ==== Sys2Proof/Machine/Mesh.lean ====
section
/-!
DEFINITION. The on-package network: the meshes of a compute die, the bridges and the paths of packets over them (R253 to
R256), and the census that a request gathers on its path (R260, R261).
-/

namespace Sys2Proof
namespace Machine

/-- The bridge of die index i at an egress of R51, 1 north, 2 east, 3 south, 4 west: the die it leads to (R255). -/
def bridgeTo (i e : Nat) : Option Nat :=
  if i < 16 then
    match e with
    | 1 => if i ≥ 4 then some (i - 4) else some ([16, 17, 18, 30].getD i 0)
    | 2 => if i % 4 < 3 then some (i + 1) else some ([19, 20, 21, 29].getD (i / 4) 0)
    | 3 => if i < 12 then some (i + 4) else some ([28, 24, 23, 22].getD (i - 12) 0)
    | 4 => if i % 4 > 0 then some (i - 1) else some ([31, 27, 26, 25].getD (i / 4) 0)
    | _ => none
  else if i = 16 ∨ i = 17 ∨ i = 18 ∨ i = 30 then
    if e = 3 then some ((if i = 30 then 3 else i - 16)) else none
  else if i = 19 ∨ i = 20 ∨ i = 21 ∨ i = 29 then
    if e = 4 then some ((if i = 29 then 15 else 4 * (i - 19) + 3)) else none
  else if i = 22 ∨ i = 23 ∨ i = 24 ∨ i = 28 then
    if e = 1 then some ((if i = 28 then 12 else 15 - (i - 22))) else none
  else if i = 25 ∨ i = 26 ∨ i = 27 ∨ i = 31 then
    if e = 2 then some ((if i = 31 then 0 else 12 - 4 * (i - 25))) else none
  else none

/-- The egress of the far end of a bridge; the side of a router at which a packet arrives that left its neighbour by e. -/
def farEgress (e : Nat) : Nat := [0, 3, 4, 1, 2].getD e 0

/-! Paths within a die (R253, R254). Router 8y + x serves the tile of that index; y grows southwards (R19). -/

/-- A router that a packet crosses: its die, its index, the input by which the packet comes, 0 the tile port or the stack
cache, else a side, and its output: 0 the stack cache, 1 to 4 a side, 5 the tile port. -/
structure Hop where
  die : Nat
  router : Nat
  inp : Nat
  out : Nat
deriving DecidableEq, Repr

/-- The sides by which a packet leaves on its way from router a to router b of a die: a request travels first along x and
then along y, a response first along y (R254). -/
def meshSteps (response : Bool) (a b : Nat) : List Nat :=
  let xs := List.replicate (b % 8 - a % 8) 2 ++ List.replicate (a % 8 - b % 8) 4
  let ys := List.replicate (b / 8 - a / 8) 3 ++ List.replicate (a / 8 - b / 8) 1
  if response then ys ++ xs else xs ++ ys

/-- The router next to r at a side. -/
def routerNext (r out : Nat) : Nat := match out with | 1 => r - 8 | 2 => r + 1 | 3 => r + 8 | 4 => r - 1 | _ => r

/-- The routers crossed from r, entered by an input, along a list of outputs. -/
def hopsAlong (die : Nat) : List Nat → Nat → Nat → List Hop
  | [], _, _ => []
  | o :: rest, r, i => { die := die, router := r, inp := i, out := o } :: hopsAlong die rest (routerNext r o) (farEgress o)

/-- The router of a die that module k of the bridge at egress e joins: column k of a north or south edge, row k of an east
or west one (R256). -/
def edgeRouter (e k : Nat) : Nat := match e with | 1 => k | 2 => 8 * k + 7 | 3 => 56 + k | _ => 8 * k

/-- The module of the bridge at egress e that a packet from router r uses: its x for a north or south bridge, its y for an
east or west one (R256). -/
def bridgeModule (e r : Nat) : Nat := if e = 1 ∨ e = 3 then r % 8 else r / 8

/-- The routers that a packet crosses from router r of die i over the bridges of a path, each by its module k, to router b
of the last die, where it leaves by `out` (R253, R254, R256). A die that is no compute die has no mesh. -/
def packetHops (response : Bool) (k b out : Nat) : List (Nat × Nat) → Nat → Nat → Nat → List Hop
  | [], i, r, inp => if i < 16 then hopsAlong i (meshSteps response r b ++ [out]) r inp else []
  | (_, e) :: rest, i, r, inp =>
    (if i < 16 then hopsAlong i (meshSteps response r (edgeRouter e k) ++ [e]) r inp else [])
      ++ packetHops response k b out rest ((bridgeTo i e).getD i) (edgeRouter (farEgress e) k) (farEgress e)

/-- The bridge module of a packet that enters the network at router r of die i and takes a path (R256). -/
def moduleOf (i r : Nat) (path : List (Nat × Nat)) : Nat :=
  match path with
  | (_, e) :: _ => if i < 16 then bridgeModule e r else Config.sourceModule i % 8
  | [] => 0

/-- All the routers that a packet crosses from router r of die i to router b of the last die of a path. -/
def routeHops (response : Bool) (i r : Nat) (path : List (Nat × Nat)) (b out : Nat) : List Hop :=
  packetHops response (moduleOf i r path) b out path i r 0

/-- The router of its die that a place is reached at, and the output there: a stack offset by its bits [12:7] (R253), a tile
store by its tile. -/
def placeRouter : Place → Nat × Nat
  | .mem _ off => (off / 128 % 64, 0)
  | .window g _ => (g % 64, 5)
  | .ctrl i _ => (Config.controlRouter i % 64, 0)
  | .hole => (0, 0)

/-- The die that a place is on. -/
def placeDie : Place → Option Nat
  | .mem d _ => some d
  | .window g _ => some (g / 64)
  | .ctrl i _ => some i
  | .hole => none

/-! Census (R260, R261) -/

/-- A census value: at least 1, at most 65,535 (R260). -/
def censusClamp (n : Nat) : Nat := min 65535 (max 1 n)

/-- The census of an arbiter's output: the sum over its live inputs (R260). -/
def censusOut (l : List Nat) : Nat := censusClamp (l.foldl (· + ·) 0)

/-- The key of the arbiter of a router's output. -/
def arbKey (die router out : Nat) : Nat := (64 * die + router) * 6 + out

/-- The census with which a request that was stamped c leaves the last of some routers: at each it becomes that of its
input, and the output stamps the sum (R260, R261). -/
def carried (s : State) (hops : List Hop) (c : Nat) : Nat :=
  hops.foldl (fun c h => censusOut ((mget s.link.arbs Arb.reset (arbKey h.die h.router h.out)).census.set h.inp c)) (censusClamp c)

/-- The context of a lane instruction in the queue. -/
def laneCtx (T : Tile) (q : Nat) : List Nat := ((T.lane.find? (fun e => e.seq == q)).map (fun e => e.ctx)).toList

/-- The contexts that a read of the tile serves. -/
def readCtx (T : Tile) (r : ReadReq) : List Nat :=
  match r.owner with | .load c _ => [c] | .fetch c => [c] | .lane q => laneCtx T q | .prefetch _ => []

/-- The contexts whose stores a write of the tile carries. -/
def writeCtx (T : Tile) (w : WriteReq) : List Nat :=
  w.who.map (fun x => x.ctx) ++ (match w.lane with | some (q, _) => laneCtx T q | none => [])

/-- A requester of a tile is active: it has a request waiting, or has sent one within the last 256 FCLK cycles, here this
tick or the one before (R260; assumption 133). Requesters are the contexts and, as 8, the DMA engine. -/
def tileActive (T : Tile) (now r : Nat) : Bool :=
  let waits := if r = 8 then decide (T.dmaReqs > 0)
    else T.reads.any (fun x => x.answer.isNone && (readCtx T x).contains r)
      || T.writes.any (fun w => w.status.isNone && (writeCtx T w).contains r)
  waits || decide (now ≤ mget T.lastSent 0 r)

/-- The census that a tile's port stamps: its active requesters (R260). -/
def tileCensus (T : Tile) (now : Nat) : Nat := censusClamp ((List.range 9).filter (tileActive T now)).length

/-- A requester of a tile has sent a request. -/
def sentNow (now : Nat) (rs : List Nat) (T : Tile) : Tile :=
  { T with lastSent := rs.foldl (fun m r => mset m r (now + 1)) T.lastSent }

/-- The census that the queue front end stamps: its queues with a descriptor in flight (R260). -/
def queueCensus (s : State) : Nat := censusClamp ((s.qf.descs.map (·.q)).eraseDups).length

end Machine
end Sys2Proof
end

