-- ==== Sys2Proof/Machine/Fabric.lean ====
section
/-!
DEFINITION. Paths over the package and their changes (R257, R258), fabric fences (R431), and accesses at their points of
coherence by requesters of a die (R258).
-/

namespace Sys2Proof
namespace Machine

/-- The bridge of die i at egress e carries packets: it is not down and the next die's fabric is not fenced (R257). -/
def egressUsable (s : State) (i e : Nat) : Bool :=
  match bridgeTo i e with
  | none => false
  | some j => !s.bridgesDown.contains (8 * i + e) && !s.link.fabricFenced.contains j

/-- The dies a packet crosses from die i to die t, with the egress taken at each, or the die that has no usable egress
(R51, R257, R258). -/
def pathFrom (s : State) (route : List Nat) (t : Nat) : Nat → Nat → Except Nat (List (Nat × Nat))
  | 0, i => .error i
  | fuel + 1, i =>
    if i = t then .ok []
    else
      let b := route.getD (32 * i + t) 0
      let pr := fld b 2 0
      let al := fld b 6 4
      let e := if egressUsable s i pr then some pr else if al ≠ pr ∧ egressUsable s i al then some al else none
      match e with
      | none => .error i
      | some e =>
        match bridgeTo i e with
        | none => .error i
        | some j =>
          match pathFrom s route t fuel j with
          | .ok p => .ok ((i, e) :: p)
          | .error x => .error x

/-- The path from die i to die t under the Chart in force. -/
def pathOf (s : State) (i t : Nat) : Except Nat (List (Nat × Nat)) :=
  match s.chart with
  | none => if i = t then .ok [] else .error i
  | some c => pathFrom s c.route t 33 i

/-- The port by which a transaction for module m leaves this module: PRIMARY, or ALTERNATE while PRIMARY is not ACTIVE
(R270). -/
def originPort (s : State) (m : Nat) : Option Nat :=
  match s.chart with
  | none => none
  | some c =>
    let (p, a) := mget c.routes (255, 255) m
    if (mget s.link.ports Port.reset p).state = .active ∧ p < 24 then some p
    else if (mget s.link.ports Port.reset a).state = .active ∧ a < 24 then some a else none

/-- Where a request goes: a die index, or 32 + the ID of another module. -/
abbrev Dest := Nat

/-- The destination of a request of a tile: the home die, the window's die, the control space's die, or another module
(R257). -/
def destOf (s : State) (a : Nat) : Option Dest :=
  if isFabric a then some (32 + fld a 59 48) else placeDie (placeOf s a)

/-- The target die of a destination: for another module the link die of the port that requests leave by (R257). -/
def destDie (s : State) (k : Dest) : Option Nat :=
  if k < 32 then some k else (originPort s (k - 32)).map (fun p => 16 + p / 2)

/-- The target die of a request (R257). -/
def targetDie (s : State) (a : Nat) : Option Nat := (destOf s a).bind (destDie s)

/-- The way from die i to a destination: the port where it leaves the module, and the dies crossed; the error is the die
without a usable egress, where there is one (R257, R258). -/
def wayTo (s : State) (i : Nat) (k : Dest) : Except (Option Nat) (Option Nat × List (Nat × Nat)) :=
  match destDie s k with
  | none => .error none
  | some d =>
    match pathOf s i d with
    | .ok p => .ok (if k < 32 then none else originPort s (k - 32), p)
    | .error x => .error (some x)

/-! Changes of path (R257, R278) -/

/-- The unanswered requests of a tile, by number and address. -/
def tileRequests (T : Tile) : List (Nat × Nat) :=
  ((T.reads.filter (fun r => r.answer.isNone)).map (fun r => (r.seq, r.addr)))
    ++ ((T.writes.filter (fun w => w.status.isNone)).map (fun w => (w.ord, w.addr)))

/-- The tile whose DMA engine performs the COPY of a command record. -/
def dmaTile (s : State) (q idx : Nat) : Option Nat :=
  (s.qf.descs.find? (fun d => d.q == q && d.idx == idx)).map (fun d => leAt d.bytes 0x3C 2)

/-- A put of the COPY of a command record on tile t. -/
def putOfTile (s : State) (t : Nat) (x : Put) : Bool :=
  match x.src with | .dma q idx _ => dmaTile s q idx == some t | _ => false

/-- The destinations of the requests that a tile's DMA engine has outstanding: the modules of the tags it holds, and the link
dies of its puts (R259, R280). -/
def dmaDests (s : State) (t : Nat) : List Dest :=
  (s.link.ports.flatMap (fun p => p.2.tags.filterMap (fun e => match e.owner with
      | .dma q idx _ => if dmaTile s q idx = some t then some (32 + e.dst) else none
      | _ => none)))
    ++ (s.link.engines.filter (fun E => E.2.waiting.any (putOfTile s t) || E.2.done.any (fun x => putOfTile s t x.1))).map
      (fun E => 16 + E.1)

/-- Some request of tile t to a destination, numbered at most b, or of its DMA engine, is outstanding. -/
def oldOutstanding (s : State) (t : Nat) (k : Dest) (b : Nat) : Bool :=
  (tileRequests (getT s t)).any (fun r => r.1 ≤ b && destOf s r.2 == some k) || (dmaDests s t).contains k

/-- Some request of tile t to a destination has left by a link (R259). -/
def tagOutstanding (s : State) (t : Nat) (k : Dest) : Bool :=
  s.link.ports.any (fun p => p.2.tags.any (fun e => 32 + e.dst == k && (match e.owner with
    | .read g _ => g == t
    | .write g _ => g == t
    | .dma q idx _ => dmaTile s q idx == some t)))

/-- Before the requests of a tile to a destination take another way they wait for those it has outstanding: one switch is
noted for each source and destination whose way differs between two states and is usable (R257, R278). -/
def noteSwitches (before after : State) : State :=
  let src := ((after.tiles.map (·.1)) ++ after.qf.descs.map (fun d => leAt d.bytes 0x3C 2)).eraseDups
  let sw := src.flatMap (fun t =>
    (((tileRequests (getT after t)).filterMap (fun r => destOf after r.2) ++ dmaDests after t).eraseDups).filterMap (fun k =>
      match wayTo after (t / 64) k with
      | .error _ => none
      | .ok w =>
        let same := match wayTo before (t / 64) k with
          | .ok v => v == w
          | .error _ => false
        if same then none else some (t, k, (getT after t).seq)))
  { after with link := { after.link with switching := after.link.switching ++ sw } }

/-- A request of tile t numbered n, with destination k, waits for a change of path (R257): it is one of the new ones, or it
has not left while one that has is outstanding (R227). -/
def pathWaits (s : State) (t : Nat) (k : Dest) (n : Nat) : Bool :=
  s.link.switching.any (fun x => x.1 == t && x.2.1 == k && (n > x.2.2 || tagOutstanding s t k))

/-- Requests of the DMA engine of tile t to a destination wait for a change of path (R257). -/
def dmaWaits (s : State) (t : Nat) (k : Dest) : Bool := s.link.switching.any (fun x => x.1 == t && x.2.1 == k)

/-- Change the links, and note the changes of path that come of it. -/
def relink (s : State) (f : LinkSt → LinkSt) : State := noteSwitches s { s with link := f s.link }

/-- The fabric of die i is fenced: its routers and bridges carry no transit, and routes take their alternates (R257, R258,
R431). -/
def fabricFence (s : State) (i : Nat) : State :=
  if s.link.fabricFenced.contains i then s
  else relink s (fun l => { l with fabricFenced := sIns l.fabricFenced i })

/-- BRIDGE_DOWN: die i finds the retry of its bridge at an egress exhausted: a record is posted, the die's fabric is fenced
and paths that crossed the bridge change (R257, R430, R431). -/
def execBridgeDown (i : DieIdx) (e : Fin 8) (s : State) : Host.Outcome State Fault Refusal :=
  .next (
    match bridgeTo i.val e.val with
    | none => s
    | some j =>
      if s.bridgesDown.contains (8 * i.val + e.val) then s
      else
        let s' := { s with bridgesDown := sIns (sIns s.bridgesDown (8 * i.val + e.val)) (8 * j + farEgress e.val) }
        let s' := { s' with link := { s'.link with fabricFenced := sIns s'.link.fabricFenced i.val } }
        postErr (noteSwitches s s') i.val 2 0x0402 i.val 0 (toLE 1 e.val) 4)

/-- PATH_SWITCH: traffic from a tile to a target die moves to its new path once every request on the old one has completed
(R257). -/
def execPathSwitch (t : TileId) (d : DieIdx) (s : State) : Host.Outcome State Fault Refusal :=
  .next (
    let mine := fun (x : Nat × Dest × Nat) => x.1 == t.val && destDie s x.2.1 == some d.val
    let done := fun (x : Nat × Dest × Nat) => mine x && !oldOutstanding s t.val x.2.1 x.2.2
    { s with link := { s.link with switching := s.link.switching.filter (fun x => !done x) } })

/-! Accesses by requesters of a die (R258) -/

/-- The fabric address of a request (R40). -/
def fabricAddr (s : State) (a : Nat) : Nat := if isFabric a then a % 2 ^ 60 else ownId s * 2 ^ 48 + a

/-- Die x finds no usable egress for a request to address a on die d: a contained record, and the fence of its fabric (R258,
R430, R431). -/
def noEgress (s : State) (a : Nat) (x : Option (Nat × Nat)) : State :=
  match x with
  | some (i, d) => postErr (fabricFence s i) i 2 0x0401 i (fabricAddr s a) (toLE 1 d) 4
  | none => s

/-- The die without a usable egress on the way from die i to module address a, with the target die (R258). -/
def cutAt (s : State) (i a : Nat) : Option (Nat × Nat) :=
  match placeDie (placeOf s a) with
  | none => none
  | some d => match pathOf s i d with | .error x => some (x, d) | .ok _ => none

/-- Status of an access by a requester of die i to n bytes at module address a, and the state with the record of a die that
has no usable egress: ADDR_ERROR first, then FENCED (R258, R269). -/
def statusFrom (s : State) (i a n : Nat) : Nat × State :=
  let st := cohStatus s a n
  if st = 1 then (1, s)
  else
    match (linesOf a n).findSome? (fun l => cutAt s i l.1) with
    | some x => (2, noEgress s a (some x))
    | none => (st, s)

/-- A read at its point of coherence by a requester of die i. -/
def cohReadFrom (s : State) (i a n hint : Nat) (w : Bool) (errs : List SymErr) : Option CohRd :=
  let x := statusFrom s i a n
  if x.1 ≠ 0 then some { st := x.1, bytes := [], pois := [], s := x.2 } else cohRead s a n hint w errs

/-- A write at its point of coherence by a requester of die i. -/
def cohWriteFrom (s : State) (i a : Nat) (bs : List (Option Byte)) (pois : List Bool) (hint : Nat) (errs : List SymErr) :
    Option (Nat × State) :=
  let x := statusFrom s i a bs.length
  if x.1 ≠ 0 then some x else cohWrite s a bs pois hint errs

/-- A write of plain bytes by a requester of die i. -/
def cohWriteBFrom (s : State) (i a : Nat) (bs : List Byte) (hint : Nat) (errs : List SymErr) : Option (Nat × State) :=
  cohWriteFrom s i a (bs.map some) (bs.map (fun _ => false)) hint errs

end Machine
end Sys2Proof
end

