-- ==== Sys2Proof/Machine/Flit.lean ====
section
/-!
DEFINITION. Bluner flits: CRC-64 and Reed-Solomon code (R264), header slots and transactions (R267), lane streams
(R262), retry and credits (R263, R265, R266).
-/

namespace Sys2Proof
namespace Machine

/-- One byte of the CRC-64 of R264: eight shifts of the remainder. -/
def crcShift : Nat → Nat → Nat
  | 0, r => r
  | n + 1, r => crcShift n (if r.testBit 63 then ((r * 2) % 2 ^ 64) ^^^ 0x42F0E1EBA9EA3693 else (r * 2) % 2 ^ 64)

/-- CRC-64 of a byte list: initial value and final XOR all ones, no reflection (R264). -/
def crc64 (l : List Byte) : Nat :=
  (l.foldl (fun r b => crcShift 8 (r ^^^ (b.toNat <<< 56))) 0xFFFFFFFFFFFFFFFF) ^^^ 0xFFFFFFFFFFFFFFFF

/-- The low part of x^8 + x^4 + x^3 + x^2 + 1 (R264). -/
def poly8 : Nat := 0x1D

/-- g(x), highest coefficient first, without its leading 1 (R264). -/
def rsGen : List Nat := (locPoly 8 poly8 ((List.range 8).map (gfPow 8 poly8 2))).reverse.drop 1

/-- Parity of 120 data coefficients, highest power first: d(x) x^8 mod g(x), highest power first (R264). -/
def rsParity (d : List Nat) : List Nat :=
  d.foldl (fun rem c =>
    let f := c ^^^ rem.getD 0 0
    (List.range 8).map (fun i => rem.getD (i + 1) 0 ^^^ gfMul 8 poly8 f (rsGen.getD i 0))) (List.replicate 8 0)

/-- The 16 FEC bytes of the first 240 bytes of a flit (R264). -/
def flitFec (b : List Byte) : List Byte :=
  let par := fun c => rsParity ((List.range 120).map (fun j => (b.getD (2 * j + c) 0#8).toNat))
  (List.range 16).map (fun k => BitVec.ofNat 8 ((par (k % 2)).getD (k / 2) 0))

/-- State of Berlekamp's recursion on the syndromes: locator, previous locator, degree, gap, previous discrepancy. -/
def bmStep (syn : List Nat) (st : List Nat × List Nat × Nat × Nat × Nat) (n : Nat) :
    List Nat × List Nat × Nat × Nat × Nat :=
  let (C, B, L, m, b) := st
  let d := (List.range (L + 1)).foldl (fun a i => a ^^^ gfMul 8 poly8 (C.getD i 0) (syn.getD (n - i) 0)) 0
  let f := gfMul 8 poly8 d (gfInv 8 poly8 b)
  let C' := (List.range 9).map (fun i => C.getD i 0 ^^^ (if i ≥ m then gfMul 8 poly8 f (B.getD (i - m) 0) else 0))
  if d = 0 then (C, B, L, m + 1, b)
  else if 2 * L ≤ n then (C', C, n + 1 - L, 1, d)
  else (C', B, L, m + 1, b)

/-- Decode one codeword of 128 coefficients, index i the coefficient of x^i: the corrections, none where more than 4
bytes are wrong (R264). -/
def rsDecode (cw : List Nat) : Option (List (Nat × Nat)) :=
  let syn := (List.range 8).map (syndrome 8 poly8 cw)
  if syn.all (· == 0) then some []
  else
    let r := (List.range 8).foldl (bmStep syn) ([1], [1], 0, 1, 1)
    let L := r.2.2.1
    let pos := (List.range 128).filter (fun i => polyAt 8 poly8 (gfInv 8 poly8 (gfPow 8 poly8 2 i)) r.1 == 0)
    if L > 4 ∨ pos.length ≠ L then none else solveAt 8 poly8 syn pos

/-- Where coefficient i of codeword c lies in the flit (R264). -/
def rsPlace (c i : Nat) : Nat := if i < 8 then 0xF0 + 2 * (7 - i) + c else 2 * (127 - i) + c

/-- Decode a received flit: its bytes corrected, the places corrected, and whether it is good (R264). -/
def flitDecode (b : List Byte) : List Byte × List Nat × Bool :=
  let one := fun c => rsDecode ((List.range 128).map (fun i => (b.getD (rsPlace c i) 0#8).toNat))
  let fixes := fun c => ((one c).getD []).map (fun iv => (rsPlace c iv.1, iv.2))
  let fx := fixes 0 ++ fixes 1
  let b' := fx.foldl (fun b pv => lmod b pv.1 (fun x => x ^^^ BitVec.ofNat 8 pv.2)) b
  let ok := (one 0).isSome && (one 1).isSome
  (b', fx.map (·.1), ok && leAt b' 0xE8 8 == crc64 (b'.take 0xE8))

/-- The bytes of a flit (R263). -/
def flitBytes (seq kind ackSeq ack req rsp first : Nat) (slots : List (List Byte)) : List Byte :=
  let h := toLE 2 (seq % 4096 + kind * 4096) ++ toLE 2 (ackSeq % 4096 + ack * 4096) ++ toLE 1 req ++ toLE 1 rsp
    ++ toLE 1 first ++ [0#8]
  let b := h ++ slots.flatten
  let b := b ++ toLE 8 (crc64 b)
  b ++ flitFec b

/-! Transactions and slots (R267) -/

/-- An empty slot: a NOP header. -/
def nopSlot : List Byte := List.replicate 32 0#8

/-- The header slot of a transaction (R267). -/
def txnHeader (x : Txn) : List Byte :=
  toLE 1 x.type ++ toLE 1 (x.dslots % 8 + x.hint % 4 * 8) ++ toLE 2 x.tag ++ toLE 2 x.src ++ toLE 2 x.dst ++ toLE 6 x.addr
    ++ toLE 1 x.len ++ toLE 1 x.ttl ++ toLE 2 x.census ++ toLE 1 x.op ++ toLE 1 x.status ++ toLE 1 x.poison
    ++ toLE 3 0 ++ (x.operand ++ List.replicate 8 0#8).take 8

/-- The slots of a transaction: header, then data (R267). -/
def txnSlots (x : Txn) : List (List Byte) := txnHeader x :: x.data

/-- The transaction of a header slot and its data slots; `resv` gathers its reserved fields, and STATUS, zero in
requests (R267). -/
def txnOf (h : List Byte) (data : List (List Byte)) : Txn :=
  let f := leAt h
  { type := f 0 1, dslots := f 1 1 % 8, hint := fld (f 1 1) 4 3, tag := f 2 2, src := f 4 2 % 4096, dst := f 6 2 % 4096
    addr := f 8 6, len := f 14 1, ttl := f 15 1 % 16, census := f 16 2, op := f 18 1, status := f 19 1
    poison := f 20 1 % 16, operand := slice h 24 8
    resv := f 1 1 ≥ 32 || f 4 2 ≥ 4096 || f 6 2 ≥ 4096 || f 15 1 ≥ 16 || f 20 1 ≥ 16 || f 21 3 != 0
      || (f 0 1 < 0x80 && f 19 1 != 0)
    data := data }

/-- A response class transaction type has bit 7 set (R268). -/
def isResponse (type : Nat) : Bool := decide (type ≥ 0x80)

/-- Take whole transactions off a stream of received slots, NOP slots between them dropped (R267). -/
def takeTxns : Nat → List (List Byte) → List Txn × List (List Byte)
  | 0, l => ([], l)
  | _, [] => ([], [])
  | fuel + 1, h :: r =>
    if leAt h 0 1 = 0 then takeTxns fuel r
    else
      let n := leAt h 1 1 % 8
      if r.length < n then ([], h :: r)
      else
        let x := takeTxns fuel (r.drop n)
        (txnOf h (r.take n) :: x.1, x.2)

/-! Lane streams (R262) -/

/-- One keystream byte and the state after it (R262). -/
def keyByte (s : Nat) : Nat × Nat :=
  (List.range 8).foldl (fun (x : Nat × Nat) b =>
    let o := ((x.1 >>> 30) ^^^ (x.1 >>> 27)) % 2
    ((x.1 * 2 + o) % 2 ^ 31, x.2 + o * 2 ^ b)) (s, 0)

/-- The n keystream bytes after the first `skip` of a seed. -/
def keyStream : Nat → Nat → Nat → List Nat
  | 0, 0, _ => []
  | skip + 1, n, s => keyStream skip n (keyByte s).1
  | 0, n + 1, s => (keyByte s).2 :: keyStream 0 n (keyByte s).1

/-- What a flit puts on the lanes: byte b on lane l_(b mod W), scrambled by the keystream since the last alignment
block (R262). -/
def flitLanes (lanes periods : Nat) (b : List Byte) : List (Nat × List Byte) :=
  let ls := bitsOf 8 lanes
  let w := ls.length
  if w = 0 then []
  else
    let per := 256 / w
    (List.range w).map (fun i =>
      let k := keyStream (periods * per) per (0x7FFFFF00 + ls.getD i 0)
      (ls.getD i 0, (List.range per).map (fun j => b.getD (j * w + i) 0#8 ^^^ BitVec.ofNat 8 (k.getD j 0))))

/-- The alignment block of every lane in use (R262). -/
def alignBlock (lanes seq : Nat) : List (Nat × List Byte) :=
  let ls := bitsOf 8 lanes
  let w := ls.length
  ls.map (fun l => (l, toLE 1 l ++ toLE 1 w ++ toLE 2 seq ++ List.replicate (256 / max w 1 - 4) 0x88#8))

/-- The level of a two-bit symbol (R262): Gray-coded PAM4. -/
def pam4 (b : Nat) : Int := ([-3, -1, 3, 1] : List Int).getD (b % 4) 0

/-- A byte as four symbols, bits [1:0] first (R262). -/
def symbols (b : Byte) : List Int := (List.range 4).map (fun i => pam4 (b.toNat >>> (2 * i)))

/-- The symbols of the bytes on each lane (R262). -/
def laneSymbols (l : List (Nat × List Byte)) : List (Nat × List Int) := l.map (fun x => (x.1, x.2.flatMap symbols))

/-! Ports -/

/-- Port p. -/
def getP (s : State) (p : Nat) : Port := mget s.link.ports Port.reset p
/-- The state with port p replaced. -/
def setP (s : State) (p : Nat) (x : Port) : State := { s with link := { s.link with ports := mset s.link.ports p x } }

/-- Slots of a transaction. -/
def txnLen (x : Txn) : Nat := 1 + x.data.length

/-- Slots queued of a list of transactions. -/
def queuedSlots (l : List (Nat × Txn)) : Nat := l.foldl (fun n x => n + txnLen x.2) 0

/-- The slots of one transaction, the first flagged. -/
def flagged (x : Txn) : List (Bool × List Byte) := (txnSlots x).zipIdx.map (fun si => (si.2 == 0, si.1))

/-! The transmit side of a port (R261, R266) -/

/-- A request reaches input i of the transmit side: its census is the input's from then on (R261). -/
def enqReq (P : Port) (now i : Nat) (x : Txn) : Port :=
  { P with reqQ := P.reqQ ++ [(i, x)], census := P.census.set i (censusClamp x.census), cmark := P.cmark.set i now }

/-- A response reaches input i of the transmit side. -/
def enqRsp (P : Port) (i : Nat) (x : Txn) : Port := { P with rspQ := P.rspQ ++ [(i, x)] }

/-- The round goes on to the next input. -/
def nextInput (P : Port) : Port := { P with turn := (P.turn + 1) % 10, paid := false }

/-- Go on with the rounds of requests to the next one that may be sent, a beat being a slot: the port with its round
advanced, the position and the transaction in its queue; none where no request waits, or the next lacks slot credits (R261,
R266). -/
def nextReq : Nat → Port → Option (Port × Nat × Txn)
  | 0, _ => none
  | fuel + 1, P =>
    match P.reqQ.findIdx? (fun x => x.1 == P.turn) with
    | none =>
      if P.reqQ.isEmpty then none else nextReq fuel (nextInput { P with deficit := P.deficit.set P.turn 0 })
    | some k =>
      match P.reqQ[k]? with
      | none => none
      | some (_, x) =>
        let P := if P.paid then P
          else { P with deficit := lmod P.deficit P.turn (· + P.census.getD P.turn 0), paid := true }
        if P.deficit.getD P.turn 0 < txnLen x then nextReq fuel (nextInput P)
        else if P.reqCred < txnLen x then none
        else some (P, k, x)

/-- A request leaves its queue for the slots: its CENSUS is the sum over the live inputs (R260, R261, R266). -/
def sendReq (P : Port) (k : Nat) (x : Txn) : Port :=
  let q := P.reqQ.eraseIdx k
  { P with reqQ := q, reqCred := P.reqCred - txnLen x, lastRsp := false
           deficit := lmod P.deficit P.turn (fun d => if q.any (fun y => y.1 == P.turn) then d - txnLen x else 0)
           slotQ := P.slotQ ++ flagged { x with census := censusOut P.census } }

/-- The next response in round-robin among its inputs; none where none waits, or it lacks slot credits (R261, R266). -/
def nextRsp (P : Port) : Option (Nat × Nat × Txn) :=
  (((List.range 10).map (fun k => (P.rturn + k) % 10)).findSome? (fun i =>
    (P.rspQ.findIdx? (fun x => x.1 == i)).bind (fun k => (P.rspQ[k]?).map (fun x => (k, i, x.2))))).bind
      (fun x => if P.rspCred < txnLen x.2.2 then none else some x)

/-- A response leaves its queue for the slots. -/
def sendRsp (P : Port) (k i : Nat) (x : Txn) : Port :=
  { P with rspQ := P.rspQ.eraseIdx k, rspCred := P.rspCred - txnLen x, rturn := (i + 1) % 10, lastRsp := true
           slotQ := P.slotQ ++ flagged x }

/-- Steps in which the rounds of the ten inputs reach a packet of at most five slots. -/
def roundFuel : Nat := 80

/-- Move whole transactions to the slot queue while it holds fewer than 7 slots, the two classes in turn where both may be
sent, so that neither blocks the other (R261, R266). -/
def packSlots : Nat → Port → Port
  | 0, P => P
  | fuel + 1, P =>
    if P.slotQ.length ≥ 7 then P
    else
      match nextRsp P, nextReq roundFuel P with
      | some (k, i, x), some (Q, l, y) => packSlots fuel (if P.lastRsp then sendReq Q l y else sendRsp P k i x)
      | some (k, i, x), none => packSlots fuel (sendRsp P k i x)
      | none, some (Q, l, y) => packSlots fuel (sendReq Q l y)
      | none, none => P

/-- The bytes of a held flit under the ACK now due. -/
def heldBytes (P : Port) (h : HeldFlit) : List Byte := flitBytes h.seq 0 P.ackSeq P.ack h.req h.rsp h.first h.slots

/-- FLIT_TRANSMIT: one flit period of port p. After 16 flits an alignment block; else a flit to be sent again, or a new
data flit, or an idle one while nothing waits or 512 data flits are held; under the brake one period in four may carry data (R262, R263, R265, R373). -/
def execFlitTransmit (p : PortId) (s : State) : Host.Outcome State Fault Refusal :=
  .next (
    let P := getP s p.val
    if P.state ≠ .active then s
    else if P.periods ≥ 16 then
      { setP s p.val { P with periods := 0 } with out := s.out ++ [.lanes p.val (laneSymbols (alignBlock P.lanes P.txNext))] }
    else
      let send := fun (P' : Port) (b : List Byte) =>
        { setP s p.val { P' with periods := P.periods + 1, ack := 0 } with
          out := s.out ++ [.lanes p.val (laneSymbols (flitLanes P.lanes P.periods b))] }
      let braked := (getW s (16 + p.val / 2)).wkState.toNat.testBit 2 && P.periods % 4 != 0
      match (if braked then none else P.resend).bind (fun q => P.held.find? (fun h => h.seq == q)) with
      | some h =>
        let nx := (h.seq + 1) % 4096
        send { P with resend := if P.held.any (fun x => x.seq == nx) then some nx else none } (heldBytes P h)
      | none =>
        let P := if braked then P else { P with resend := none }
        let P := if P.held.length ≥ 512 ∨ braked then P else packSlots 8 P
        let rq := min 255 (P.freeReq / 8)
        let rs := min 255 (P.freeRsp / 8)
        let Q := { P with freeReq := P.freeReq - 8 * rq, freeRsp := P.freeRsp - 8 * rs }
        if P.slotQ.isEmpty ∨ P.held.length ≥ 512 ∨ braked then
          send Q (flitBytes P.txNext 1 P.ackSeq P.ack rq rs 7 (List.replicate 7 nopSlot))
        else
          let now := P.slotQ.take 7
          let first := (now.findIdx? (fun x => x.1)).getD 7
          let h : HeldFlit := { seq := P.txNext, first := first, req := rq, rsp := rs
                                slots := (now.map (·.2) ++ List.replicate 7 nopSlot).take 7 }
          send { Q with slotQ := P.slotQ.drop 7, held := P.held ++ [h], txNext := (P.txNext + 1) % 4096 }
            (flitBytes h.seq 0 P.ackSeq P.ack rq rs first h.slots))

/-- A held flit's SEQ is acknowledged by ACKSEQ, which is cumulative (R265). -/
def acked (ackSeq seq : Nat) : Bool := (ackSeq + 4096 - seq) % 4096 < 2048

/-- Take up the ACK or NAK of a good flit: the NAKs of one flit in succession are counted, and an ACK between ends the count,
unless it has reached the four that put the port in RETRAIN (R265). -/
def takeAck (P : Port) (ack ackSeq : Nat) : Port :=
  let q := (ackSeq + 1) % 4096
  if ack = 1 then
    { P with held := P.held.filter (fun h => !acked ackSeq h.seq), nakRun := if P.nakRun ≥ 4 then P.nakRun else 0 }
  else if ack = 2 then
    { P with held := P.held.filter (fun h => !acked ackSeq h.seq), replays := (P.replays + 1) % 65536
             nak := some q, nakFlit := q
             nakRun := if P.nakRun ≥ 4 then P.nakRun else if P.nakFlit = q then P.nakRun + 1 else 1 }
  else P

/-- The receiver returns NAK with the last accepted SEQ and discards what follows (R265). -/
def nakBack (P : Port) : Port := { P with ack := 2, ackSeq := (P.rxNext + 4095) % 4096, discarding := true }

/-- Count the bytes a flit's decoding corrected, in all and per lane (R274, R279). -/
def countCorr (P : Port) (now : Nat) (places : List Nat) : Port :=
  let ls := bitsOf 8 P.lanes
  let w := max 1 ls.length
  let log := (P.corrLog.filter (fun x => now < x.1 + 1250)) ++ places.map (fun b => (now, ls.getD (b % w) 0, 1))
  { P with corr := P.corr + BitVec.ofNat 32 places.length, corrLog := log }

/-- FLIT_RECEIVE: a flit reaches port p, as its lanes carry it after descrambling (R263 to R266). A NAK is returned for
a bad flit, and for a good one with an unexpected SEQ while the port is not discarding. -/
def execFlitReceive (p : PortId) (bytes : List Byte) (s : State) : Host.Outcome State Fault Refusal :=
  .next (
    let P := getP s p.val
    if P.state ≠ .active then s
    else
      let (b, places, good) := flitDecode bytes
      let P := countCorr P s.now places
      let kind := leAt b 0 2 / 4096
      if !good ∨ kind ≥ 2 then setP s p.val (nakBack P)
      else
        let seq := leAt b 0 2 % 4096
        let P := takeAck P (fld (leAt b 2 2) 13 12) (leAt b 2 2 % 4096)
        let cred := fun (P : Port) => { P with reqCred := P.reqCred + 8 * leAt b 4 1, rspCred := P.rspCred + 8 * leAt b 5 1 }
        if kind = 1 then
          let P := cred P
          setP s p.val (if seq = P.rxNext ∨ P.discarding then P else nakBack P)
        else if seq ≠ P.rxNext then setP s p.val (if P.discarding then P else nakBack P)
        else
          let slots := P.rxSlots ++ (List.range 7).map (fun i => slice b (8 + 32 * i) 32)
          let (xs, rest) := takeTxns (slots.length + 1) slots
          setP s p.val { cred P with rxNext := (seq + 1) % 4096, discarding := false, ack := 1, ackSeq := seq
                                     rxSlots := rest, rxQ := P.rxQ ++ xs })

/-- The state with port p replaced by one that may have left or entered ACTIVE: paths to other modules change with it
(R270, R278). -/
def setPort (s : State) (p : Nat) (x : Port) : State := relink s (fun l => { l with ports := mset l.ports p x })

/-- A port enters RETRAIN (R265, R274). -/
def enterRetrain (s : State) (p : Nat) : State :=
  let P := getP s p
  setPort s p { P with state := .retrain, retrains := (P.retrains + 1) % 65536, mark := s.now, nak := none, nakRun := 0 }

/-- NAK_REPLAY: the transmitter sends again from ACKSEQ + 1; four NAKs in succession of one flit put the port in RETRAIN
(R265). -/
def execNakReplay (p : PortId) (s : State) : Host.Outcome State Fault Refusal :=
  .next (
    let P := getP s p
    match P.nak with
    | none => s
    | some q =>
      if P.state ≠ .active then s
      else if P.nakRun ≥ 4 then enterRetrain s p.val
      else setP s p.val { P with nak := none, resend := if P.held.any (fun h => h.seq == q) then some q else none })

end Machine
end Sys2Proof
end

