-- ==== Sys2Proof/Machine/LinkTxn.lean ====
section
/-!
DEFINITION. Link transactions: sending and answering requests, tags and time-outs (R259), checks at the target (R269),
route-through (R270), responses (R268).
-/

namespace Sys2Proof
namespace Machine

/-- The answer to a DMA request k is put where its COPY finds it (R326). -/
def dmaAnswer (s : State) (a : DmaAns) : State := { s with link := { s.link with dmaDone := s.link.dmaDone ++ [a] } }

/-- The cause code a tile receives for a status of R267: FENCED, or REMOTE for every other status but OK (R259). -/
def causeOfStatus (st : Nat) : Nat := if st = 0 then 0 else if st = 2 then 0x11 else 0x12

/-- A request of this module completes with a status, its bytes and their poison, and its operand (R259, R268). -/
def completeReq (s : State) (o : TagOwner) (st : Nat) (bytes : List Byte) (pois : List Bool) (operand : List Byte) : State :=
  match o with
  | .read t q => modT s t (fun T => { T with reads := T.reads.map (fun r =>
      if r.seq = q then { r with answer := some (if r.atomic.isSome then operand else bytes, pois.any id, causeOfStatus st) } else r) })
  | .write t q => modT s t (fun T => { T with writes := T.writes.map (fun w =>
      if w.ord = q then { w with status := some (causeOfStatus st) } else w) })
  | .dma q idx k => dmaAnswer s { q := q, idx := idx, k := k, st := st, bytes := bytes, pois := pois, operand := operand }

/-- A free tag index of a port, from its next one on; none where all 2,048 are held (R259). -/
def freeTag (s : State) (p : Nat) : Option Nat :=
  let used := (getP s p).tags.map (·.index)
  ((List.range 2048).map (fun i => (mget s.link.tagNext 0 p + i) % 2048)).find? (fun i => !used.contains i)

/-- The input of port p's transmit side at which packets from router r of die i arrive: the module of the die's bridge, or 9
on the link die itself (R256, R261). -/
def linkInput (s : State) (i r p : Nat) : Nat :=
  match pathOf s i (16 + p / 2) with
  | .ok [] => 9
  | .ok w => moduleOf i r w
  | .error _ => 9

/-- The census with which a request of tile t reaches port p (R260, R261). -/
def linkCensus (s : State) (t p : Nat) : Nat :=
  let hops := match pathOf s (t / 64) (16 + p / 2) with | .ok w => routeHops false (t / 64) (t % 64) w 0 0 | .error _ => []
  carried s hops (tileCensus (getT s t) s.now)

/-- Send a request of tile t by port p, holding a tag (R259, R270): TTL 15, the census that its path gives it; none while no
tag is free. -/
def sendRequest (s : State) (t p : Nat) (x : Txn) (o : TagOwner) : Option State :=
  match freeTag s p with
  | none => none
  | some i =>
    let P := getP s p
    let x := { x with tag := p * 2048 + i, src := ownId s, ttl := 15, census := linkCensus s t p }
    let P := { P with tags := P.tags ++ [{ index := i, owner := o, dst := x.dst, sent := s.now }] }
    let s := setP s p (enqReq P s.now (linkInput s (t / 64) (t % 64) p) x)
    some { s with link := { s.link with tagNext := mset s.link.tagNext p ((i + 1) % 2048) } }

/-- The input of port p at which a response of this module arrives: from the router of the place it was performed at, from the
update engine of its die, or from the die that answered it (R256, R261). -/
def rspInput (s : State) (x : Txn) (p : Nat) : Nat :=
  if x.status ≠ 0 ∨ x.type ≥ 0x84 then 9
  else
    match placeDie (placeOf s x.addr) with
    | some d => linkInput s d (placeRouter (placeOf s x.addr)).1 p
    | none => 9

/-- A response travels toward a module by its route; one that cannot leave is discarded and counted at the port its
request came by (R269, R270). -/
def sendResponse (s : State) (from_ : Nat) (x : Txn) : State :=
  match originPort s x.dst with
  | some p => setP s p (enqRsp (getP s p) (rspInput s x p) x)
  | none => let P := getP s from_; setP s from_ { P with discards := (P.discards + 1) % 65536 }

/-- The response to a request: its TAG, SRC and DST swapped, TTL 15; data only with OK (R268, R270). -/
def responseOf (x : Txn) (st : Nat) (data : List (List Byte)) (poison : Nat) (operand : List Byte) : Txn :=
  { type := x.type % 128 + 128, dslots := data.length, hint := 0, tag := x.tag, src := x.dst, dst := x.src
    addr := x.addr, len := x.len, ttl := 15, census := 0, op := 0, status := st, poison := poison
    operand := operand, resv := false, data := data }

/-- Answer a request with a bare status. -/
def refuse (s : State) (p : Nat) (x : Txn) (st : Nat) : State :=
  sendResponse s p (responseOf x st [] 0 (List.replicate 8 0#8))

/-- Free the receive slots of a transaction that leaves the buffer: its credits go back (R266). -/
def freeSlots (P : Port) (x : Txn) : Port :=
  if isResponse x.type then { P with freeRsp := P.freeRsp + txnLen x } else { P with freeReq := P.freeReq + txnLen x }

/-- Take the k-th received transaction out of a port's buffer. -/
def takeRx (s : State) (p k : Nat) (x : Txn) : State :=
  let P := getP s p
  setP s p (freeSlots { P with rxQ := P.rxQ.eraseIdx k } x)

/-- The position of the first received transaction with a property. -/
def findRx (P : Port) (f : Txn → Bool) : Option (Nat × Txn) :=
  (P.rxQ.findIdx? f).bind (fun k => (P.rxQ[k]?).map (fun x => (k, x)))

/-- The sectors of its line that bytes ADDR to ADDR + LEN touch. -/
def sectorsTouched (a len : Nat) : Nat := (a + len) / 32 + 1 - a / 32

/-- A request is UNSUPPORTED (R269 item 1, Table 5, R281). -/
def unsupported (s : State) (x : Txn) : Bool :=
  let cross := decide (x.addr / 128 ≠ (x.addr + x.len) / 128)
  let n := x.data.length
  x.resv || n != x.dslots ||
  (match x.type with
   | 1 => n != 0 || cross
   | 2 => cross || n != sectorsTouched x.addr x.len
   | 3 => cross || n != (if x.op = 9 then 1 else 0) || x.op > 9 || !(x.len == 3 || x.len == 7) || x.addr % (x.len + 1) != 0
   | 4 => n == 0 || n > 4 || x.len + 1 > 32 * n
   | 5 => n == 0 || n > 4 || decide (x.addr / 128 ≠ (x.addr + 31) / 128) || x.len != 31 || x.op ≥ 64 || !permit s 2
          || (List.range 4).any (fun q => q ≥ n && (x.operand.getD q 0#8) != 0#8)
   | _ => true)

/-- The atomic operation of OP with its operand, and for CAS its compare value in the data slot (R268). -/
def txnAtomic (x : Txn) : LoadKind :=
  let n := x.len + 1
  let v := ofLE x.operand % 2 ^ (8 * n)
  match x.op with
  | 0 => .amo .add n v | 1 => .amo .and n v | 2 => .amo .or n v | 3 => .amo .xor n v | 4 => .amo .min n v
  | 5 => .amo .max n v | 6 => .amo .minu n v | 7 => .amo .maxu n v | 8 => .amo .swap n v
  | _ => .cas n (ofLE ((x.data.getD 0 []).take n)) v

/-- The home engine of compute die d (11 Table 1). -/
def homeEngine (d : Nat) : Nat := ([0, 1, 2, 3, 11, 1, 4, 4, 10, 10, 7, 5, 9, 8, 7, 6] : List Nat).getD d 0

/-- The update engine of link die l. -/
def getE (s : State) (l : Nat) : Engine := mget s.link.engines Engine.reset l
/-- The state with an update engine replaced. -/
def setE (s : State) (l : Nat) (e : Engine) : State := { s with link := { s.link with engines := mset s.link.engines l e } }

/-- The update-put of a transaction (R281). -/
def putOf (src : PutFrom) (x : Txn) : Put :=
  { src := src, addr := x.addr, table := x.op % 64, n := x.data.length, scales := (x.operand.take x.data.length)
    s := leAt x.operand 4 4, data := x.data, poison := x.poison }

/-- What is done with a request for this module that passed or failed its checks: the state, or none while it waits
(R269, R280, R287). -/
def performTxn (s : State) (p : Nat) (x : Txn) (errs : List SymErr) : Option State :=
  if unsupported s x then some (refuse s p x 5)
  else
    let n := if x.type = 5 then 32 else x.len + 1
    let st := if x.type = 4 then (0, s) else statusFrom s (16 + p / 2) x.addr n
    if st.1 ≠ 0 then some (refuse st.2 p x st.1)
    else
      match x.type with
      | 1 =>
        let lo := x.addr / 32 * 32
        let m := 32 * sectorsTouched x.addr x.len
        (cohRead s lo m x.hint true errs).map (fun r =>
          let data := (List.range (m / 32)).map (fun i => (r.bytes.drop (32 * i)).take 32)
          let po := maskOf (m / 32) (fun i => r.pois.getD (32 * i) false || (List.range 32).any (fun b => r.pois.getD (32 * i + b) false))
          sendResponse r.s p (responseOf x 0 data po (List.replicate 8 0#8)))
      | 2 =>
        let lo := x.addr / 32 * 32
        let bs := ((x.data.flatten).drop (x.addr - lo)).take n
        let po := (List.range n).map (fun i => x.poison.testBit ((x.addr - lo + i) / 32))
        (cohWrite s x.addr (bs.map some) po x.hint errs).map (fun r => refuse r.2 p x r.1)
      | 3 =>
        (cohAtomic s x.addr (txnAtomic x) x.hint errs).map (fun (st, old, po, s) =>
          sendResponse s p (responseOf x st [] (b2n po) ((old ++ List.replicate 8 0#8).take 8)))
      | 4 => some { s with link := { s.link with messages := s.link.messages ++ [(p, x)] } }
      | _ =>
        match homeOf s x.addr with
        | none => some (refuse s p x 1)
        | some (d, _) =>
          let l := homeEngine d
          let E := getE s l
          match pathOf s (16 + p / 2) (16 + l) with
          | .error y => some (refuse (noEgress s x.addr (some (y, 16 + l))) p x 2)
          | .ok _ =>
          if E.waiting.length + E.done.length ≥ 64 then none
          else some (setE s l { E with waiting := E.waiting ++ [putOf (.port p x) x] })

/-- TRANSACTION_RECEIVE: the oldest request at port p for this module is checked and performed or refused (R269). -/
def execTransactionReceive (p : PortId) (errs : List SymErr) (s : State) : Host.Outcome State Fault Refusal :=
  .next (
    match findRx (getP s p.val) (fun x => !isResponse x.type && x.dst == ownId s) with
    | none => s
    | some (k, x) =>
      match performTxn s p.val x errs with
      | none => s
      | some s' => takeRx s' p.val k x)

/-- The port by which a transit transaction received at port p leaves: the first of PRIMARY and ALTERNATE that is ACTIVE and is
not p (R270). -/
def transitPort (s : State) (ch : Chart) (p m : Nat) : Option Nat :=
  let (a, b) := mget ch.routes (255, 255) m
  let ok := fun (q : Nat) => q < 24 && q != p && (getP s q).state == .active
  if ok a then some a else if ok b then some b else none

/-- The input of port q at which a transit transaction from port p arrives: the other port of the die, or a module of the die's
bridge (R256, R261). -/
def transitInput (p q : Nat) : Nat := if p / 2 = q / 2 then 8 else Config.sourceModule (16 + p / 2) % 8

/-- The k-th received transaction x of port p, which is for another module, is forwarded or refused (R270); none while the port
it leaves by has no credits beyond those its queue needs (R266). -/
def forwardTxn (s : State) (ch : Chart) (p k : Nat) (x : Txn) : Option State :=
  let rsp := isResponse x.type
  let drop := fun (s : State) => let P := getP s p; setP s p { P with discards := (P.discards + 1) % 65536 }
  let no := fun (st : Nat) => some (takeRx (if rsp then drop s else refuse s p x st) p k x)
  if !rsp ∧ ((ch.ports[p]?).map (fun e => e.flags % 2)).getD 0 = 0 then no 3
  else if x.ttl = 0 then no 4
  else
    match transitPort s ch p x.dst with
    | none => no 3
    | some q =>
      let Q := getP s q
      let x' := { x with ttl := x.ttl - 1 }
      if rsp then
        if Q.rspCred < queuedSlots Q.rspQ + txnLen x then none
        else some (takeRx (setP s q (enqRsp Q (transitInput p q) x')) p k x)
      else if Q.reqCred < queuedSlots Q.reqQ + txnLen x then none
      else some (takeRx (setP s q (enqReq Q s.now (transitInput p q) x')) p k x)

/-- ROUTE_THROUGH: the oldest transaction at port p for another module is forwarded or refused (R270); while it waits for
credits, the oldest of the other class is, since the classes never block each other (R266). -/
def execRouteThrough (p : PortId) (s : State) : Host.Outcome State Fault Refusal :=
  .next (
    match findRx (getP s p.val) (fun x => x.dst != ownId s), s.chart with
    | some (k, x), some ch =>
      match forwardTxn s ch p.val k x with
      | some s' => s'
      | none =>
        match findRx (getP s p.val) (fun y => y.dst != ownId s && isResponse y.type != isResponse x.type) with
        | some (l, y) => (forwardTxn s ch p.val l y).getD s
        | none => s
    | _, _ => s)

/-- A response is malformed: an unlisted type, an origin port that is none, data slots that disagree with its length, or a
nonzero reserved field (R267, R269). -/
def badResponse (x : Txn) : Bool :=
  x.resv || decide (x.tag / 2048 ≥ 24) || x.data.length != x.dslots ||
  (match x.type with
   | 0x81 => x.dslots != (if x.status = 0 then sectorsTouched x.addr x.len else 0)
   | 0x82 => x.dslots != 0 | 0x83 => x.dslots != 0 | 0x84 => x.dslots != 0 | 0x85 => x.dslots != 0
   | _ => true)

/-- Complete the requests of some tags of a port with TIMEOUT (R259). -/
def timeoutTags (s : State) (p : Nat) (f : TagEnt → Bool) : State :=
  let P := getP s p
  let out := P.tags.filter f
  let s := setP s p { P with tags := P.tags.filter (fun e => !f e), timeouts := (P.timeouts + out.length) % 65536 }
  out.foldl (fun s e => completeReq s e.owner 6 [] [] (List.replicate 8 0#8)) s

/-- A request has had no response for BL_TIMEOUT ticks (R259). -/
def timedOut (s : State) (p : Nat) (e : TagEnt) : Bool := decide (s.now ≥ e.sent + s.link.timeout.getD (p / 2) 125000)

/-- LINK_RESPONSE: the oldest response at port p for this module completes the request that holds its tag, or is
discarded as late or malformed; in the tick of its time-out the time-out wins (R259, R268, R269, R278). -/
def execLinkResponse (p : PortId) (s : State) : Host.Outcome State Fault Refusal :=
  .next (
    match findRx (getP s p.val) (fun x => isResponse x.type && x.dst == ownId s) with
    | none => s
    | some (k, x) =>
      let s := takeRx s p.val k x
      let o := x.tag / 2048
      if badResponse x then
        let P := getP s p.val
        setP s p.val { P with discards := (P.discards + 1) % 65536 }
      else
        let s := timeoutTags s o (fun e => e.index == x.tag % 2048 && timedOut s o e)
        match (getP s o).tags.find? (fun e => e.index == x.tag % 2048) with
        | none => let P := getP s o; setP s o { P with late := (P.late + 1) % 65536 }
        | some e =>
          let P := getP s o
          let s := setP s o { P with tags := P.tags.filter (fun y => y.index != e.index) }
          let off := x.addr % 32
          let n := x.len + 1
          let bytes := (x.data.flatten.drop off).take n
          let pois := if x.type = 0x83 then [x.poison.testBit 0]
            else (List.range n).map (fun i => x.poison.testBit ((off + i) / 32))
          completeReq s e.owner x.status bytes pois x.operand)

/-- REQUEST_TIMEOUT: the request of a tag that has had no response for BL_TIMEOUT ticks completes with TIMEOUT (R259,
R278). -/
def execRequestTimeout (p : PortId) (i : Nat) (s : State) : Host.Outcome State Fault Refusal :=
  .next (timeoutTags s p.val (fun e => e.index == i && timedOut s p.val e))

/-- A port enters DOWN (R259, R274, R277): its tags complete with TIMEOUT and what it held is lost. -/
def portLost (s : State) (p reason : Nat) : State :=
  let s := timeoutTags s p (fun _ => true)
  let P := getP s p
  setPort s p { P with
                             state := .down, reason := reason, width := 0, lanes := 0, gen := 0, mark := s.now, step := 0
                             held := [], resend := none, nak := none, reqQ := [], rspQ := [], slotQ := []
                             rxSlots := [], rxQ := [], reqCred := 0, rspCred := 0, freeReq := 0, freeRsp := 0 }

/-- A port enters DOWN, and a record is posted (R430). -/
def portDown (s : State) (p reason : Nat) : State :=
  postErr (portLost s p reason) (16 + p / 2) 2 0x0502 p 0 (toLE 1 reason)

end Machine
end Sys2Proof
end

