-- ==== Sys2Proof/Machine/Queue.lean ====
section
/-!
DEFINITION. The queue front end: bindings and slots (R317, R318), doorbells (R322), states (R323), fences (R319),
descriptors' life (R325), receipts (R336), waiters (R332), the watchdog (R333).
-/

namespace Sys2Proof
namespace Machine

/-! Queues -/

/-- Queue q. -/
def getQ (s : State) (q : Nat) : Queue := mget s.qf.queues Queue.reset q

/-- The front end with some fields changed. -/
def modF (s : State) (f : QfSt → QfSt) : State := { s with qf := f s.qf }

/-- Field of a descriptor. -/
def df (d : Desc) (o n : Nat) : Nat := leAt d.bytes o n

/-- TYPE of a descriptor: 1 COPY, 2 LAUNCH, 3 WAIT, 4 SIGNAL, 5 SERVICE, 6 AMEND (R324). -/
def dtype (d : Desc) : Nat := df d 0 1

/-- The oldest unstarted descriptor of a queue. -/
def oldestReady (s : State) (q : Nat) : Option Desc :=
  s.qf.descs.find? (fun d => d.q == q && (d.phase == .ready || d.phase == .faulted))

/-- A LAUNCH reads its constants from host memory (R324, R327). -/
def constRef (d : Desc) : Bool := dtype d == 2 && (df d 0x2B 1).testBit 3 && decide (df d 0x2E 2 > 0)

/-- The constants of a LAUNCH have been read. -/
def constsRead (d : Desc) : Bool := !constRef d || (!d.consts.isEmpty && d.consts.all Option.isSome)

/-- A descriptor moves bytes from or to host memory that D3hot holds back (R41, R301): a COPY with a host range, a LAUNCH
whose constants have not been read, an AMEND with its image there. -/
def needsHost (d : Desc) : Bool :=
  match dtype d with
  | 1 => fld (df d 0x39 1) 1 0 == 1 || fld (df d 0x39 1) 3 2 == 1
  | 2 => !constsRead d
  | 6 => df d 0x2C 1 == 1
  | _ => false

/-- D3hot blocks a queue: nothing of it is at work or can start on the module alone (R301, R333). -/
def hotBlocked (s : State) (q : Nat) : Bool :=
  s.hx.d3hot && !s.qf.descs.any (fun d => d.q == q && d.phase == .started && !needsHost d)
    && !(oldestReady s q).any (fun d => d.phase == .ready && !needsHost d)

/-- The state with queue q replaced. Its watchdog counts while it holds slots, is not FAULTED and D3hot does not block
it (R333), and a change of HEAD, STATE, REASON, SLOTS, DONE or GUILTY marks its Letterbox words (R336). -/
def setQ (s : State) (q : Nat) (x : Queue) : State :=
  let o := getQ s q
  let run := x.held > 0 && x.state != 4 && !hotBlocked s q
  let x := if run = x.wdRun then x
    else { x with wdAcc := if x.wdRun then x.wdAcc + (s.now - x.wdMark) else x.wdAcc, wdMark := s.now, wdRun := run }
  let same := o.head = x.head ∧ o.state = x.state ∧ o.reason = x.reason ∧ o.held = x.held ∧ o.done = x.done ∧ o.guilty = x.guilty
  modF s (fun f => { f with queues := mset f.queues q (if same then x else { x with dirty := true }) })

/-- The watchdog of a queue sees a change of what its descriptors wait for (R333). -/
def wdTouch (s : State) (q : Nat) : State := setQ s q (getQ s q)

/-- The watchdog's count of a queue (R333). -/
def wdCount (s : State) (x : Queue) : Nat := if x.wdRun then x.wdAcc + (s.now - x.wdMark) else x.wdAcc

/-- The watchdog returns to 0 (R333). -/
def wdClear (s : State) (x : Queue) : Queue := { x with wdAcc := 0, wdMark := s.now }

/-- The entries of the queues that the Chart in force binds (R54, R55); with no Chart queue 0 is bound with 256 slots
(R65). -/
def chartEnts (s : State) : List QueueEnt :=
  match s.chart with
  | none => [{ queue := 0, flags := 1, reserve := 256, max := 256, watchdog := 0 }]
  | some c => c.queues ++ c.consts.flatMap (·.queues)

/-- The entry by which a queue may fetch: that of the Chart in force (R67, R317). -/
def fetchEnt (s : State) (q : Nat) : Option QueueEnt := (chartEnts s).find? (fun e => e.queue == q)

/-- All entries that bind queues: a queue that an amendment has dropped stays bound for its descriptors in flight (R67). -/
def allEnts (s : State) : List QueueEnt := chartEnts s ++ s.qf.unbinding.map (·.1)

/-- The entry that binds queue q (R54, R55, R67). -/
def boundEnt (s : State) (q : Nat) : Option QueueEnt := (allEnts s).find? (fun e => e.queue == q)

/-- The constellation a queue belongs to, or belonged to while its last descriptors complete (R67, R317). -/
def queueConst (s : State) (q : Nat) : Option Constel :=
  match s.chart with
  | none => none
  | some c =>
    match c.consts.find? (fun k => k.queues.any (fun e => e.queue == q)) with
    | some k => some k
    | none => (s.qf.unbinding.find? (fun u => u.1.queue == q)).bind (fun u => c.consts.find? (fun k => k.id == u.2))

/-- A dropped queue becomes unbound once no descriptor of it is in flight (R67). -/
def unbindTest (s : State) (q : Nat) : State :=
  if s.qf.descs.any (fun d => d.q == q) then s
  else modF s (fun f => { f with unbinding := f.unbinding.filter (fun u => u.1.queue != q) })

/-- Entries of a queue's ring: 2^(LOG2N + 4) (R320). -/
def ringEntries (x : Queue) : Nat := 2 ^ (wfld x.ring 3 0 + 4)

/-- The address of ring entry i (R319). -/
def entryAddr (x : Queue) (i : Nat) : Nat := wfld x.ring 63 12 * 4096 + 256 * (i % ringEntries x)

/-- The ring lies in module memory (QF_RING.LOC). -/
def ringLocal (x : Queue) : Bool := x.ring.toNat.testBit 4

/-- The PASID of a queue, where it has one (QF_QCFG). -/
def queuePasid (x : Queue) : Option Nat := if x.qcfg.toNat.testBit 19 then some (wfld x.qcfg 39 20) else none

/-- 32-bit difference (R322). -/
def diff32 (a b : Nat) : Nat := (a + 2 ^ 32 - b % 2 ^ 32) % 2 ^ 32

/-- Slots of the shared pool not taken (R318). -/
def poolFree (s : State) : Nat :=
  let ents := allEnts s
  let reserved := ents.foldl (fun n e => n + e.reserve) 0
  let beyond := s.qf.queues.foldl (fun n (p : Nat × Queue) =>
    n + (p.2.held - ((ents.find? (fun e => e.queue == p.1)).map (·.reserve)).getD 0)) 0
  65536 - reserved - beyond

/-- A queue takes k more slots only within its MAX and, beyond RESERVE, from the shared pool (R318). -/
def slotsFree (s : State) (q k : Nat) : Bool :=
  match fetchEnt s q with
  | none => false
  | some e =>
    let h := (getQ s q).held
    decide (h + k ≤ e.max) && decide ((h + k - e.reserve) - (h - e.reserve) ≤ poolFree s)

/-- The function may send a request to the host (R301, R431). -/
def canSend (s : State) : Bool := !s.hx.d3hot && !s.hx.stopped

/-- The function may send a read request: fewer than 16,384 are outstanding, whose tags have 14 bits (R29, R298). -/
def canRead (s : State) : Bool := canSend s && decide (s.hx.hreads.length < 16384)

/-- The state after a meaning that answers a next state. -/
def after (s : State) (o : Host.Outcome State Fault Refusal) : State := match o with | .next s' => s' | _ => s

/-- Send something outside. -/
def emit (s : State) (o : Out) : State := { s with out := s.out ++ [o] }

/-- Something crosses the host link: it is not idle, and leaves L1 (R300). -/
def traffic (s : State) : State :=
  { s with hx := { s.hx with
    lastTraffic := s.now
    lstate := if s.hx.lstate = .l1 then (if s.hx.width < s.hx.maxWidth then .l0p else .l0) else s.hx.lstate } }

/-- The host's memory requests reach the function: it is ready and not in D3hot (R301, R302). -/
def hostLive (s : State) : Bool := s.hx.ready && !s.hx.d3hot

/-- A write of the host acts; in D3hot and before the function is ready it is discarded (R301, R302). -/
def hostAct (s : State) (f : State → State) : State := if hostLive s then f (traffic s) else s

/-- A write to a register that host, tiles and debug sessions may write (R301, R335). -/
def qfWrite (a : Agent) (s : State) (f : State → State) : State :=
  match a with
  | .host => hostAct s f
  | .tile _ => f s
  | .debug => f s
  | _ => s

/-- A request that D3hot holds back waits in its order, once for each kind but the receipts (R301). -/
def defer (s : State) (x : Deferred) : State :=
  let again := match x with | .receipt _ => false | _ => s.hx.deferred.contains x
  if s.hx.d3hot ∧ !again then { s with hx := { s.hx with deferred := s.hx.deferred ++ [x] } } else s

/-- Send a read of host memory for an owner (R41). -/
def hostRead (s : State) (own : ReadOwner) (addr n : Nat) (pasid : Option Nat) (tr : Bool) : State :=
  let id := s.hx.nextId
  let s := traffic { s with hx := { s.hx with nextId := id + 1, hreads := s.hx.hreads ++ [(id, own)] } }
  emit s (.hostRead id addr n pasid tr)

/-- A posted write into host memory by a COPY. -/
def hostWrite (s : State) (addr : Nat) (bytes : List Byte) (pasid : Option Nat) (ep tr : Bool) : State :=
  emit (traffic s) (.hostWrite addr bytes pasid ep tr)

/-- A posted write into the Letterbox (R336). -/
def postWrite (s : State) (addr : Nat) (bytes : List Byte) : State := emit (traffic s) (.post addr bytes)

/-! Waiters (R332) -/

/-- Wake a context that sleeps in `qwait` with a result. A context whose entry is under way keeps the waiting instruction in
TL_EPC, to be executed again at its return (R120). -/
def qwake (s : State) (t : Nat) (c : CtxId) (v : Nat) : State :=
  let C := getC s t c
  match (if C.pend.isNone then C.run else .idle) with
  | .inQwait rd q _ =>
    let C := { C with run := .running, qseen := mset C.qseen q s.qf.events }
    finish (setC s t c (xset C (Fin.ofNat 32 rd) (toW v))) t c none
  | _ => s

/-- Wake every context that a test selects. -/
def qwakeAll (s : State) (v : Nat) (f : Nat → Nat → Bool) : State :=
  s.tiles.foldl (fun s (tT : Nat × Tile) =>
    (List.range 8).foldl (fun s i =>
      match (getC s tT.1 (cix i)).run with
      | .inQwait _ q _ => if f tT.1 q then qwake s tT.1 (cix i) v else s
      | _ => s) s) s

/-- A doorbell on queue q sets TL_IPEND.QWAKE of every context that has armed it (R119). -/
def armedWake (s : State) (q : Nat) : State :=
  s.tiles.foldl (fun s (tT : Nat × Tile) =>
    if tT.2.tstate = .t3 then s
    else (List.range 8).foldl (fun s i =>
      if (getC s tT.1 (cix i)).qarm.toNat.testBit 12 ∧ wfld (getC s tT.1 (cix i)).qarm 11 0 = q then
        modC s tT.1 (cix i) (fun C => { C with ipend := C.ipend ||| 2 }) else s) s) s

/-- A queue event of q, a doorbell or a delivery: its number rises and its waiters wake with 0 (R321, R332). -/
def queueEvent (s : State) (q : Nat) (bell : Bool) : State :=
  let s := modF s (fun f => { f with events := f.events + 1 })
  let x := getQ s q
  let s := if bell then armedWake (setQ s q { x with bell := s.qf.events }) q else s
  qwakeAll s 0 (fun _ w => w == q)

/-! Doorbells and states (R322, R323) -/

/-- An idle queue whose PENDING is set while it is bound becomes ACTIVE (R323). -/
def idleTest (s : State) (q : Nat) : State :=
  let x := getQ s q
  if x.state = 1 ∧ x.pending ∧ (fetchEnt s q).isSome then setQ s q { x with state := 2 } else s

/-- A doorbell of T (R322). -/
def doorbell (s : State) (q T : Nat) : State :=
  let s := queueEvent s q true
  let x := getQ s q
  if diff32 T x.head ≤ ringEntries x ∧ diff32 T x.head ≥ diff32 x.tail x.head then
    idleTest (setQ s q { x with tail := T % 2 ^ 32, pending := true }) q
  else if x.state = 0 ∨ x.state = 4 then s
  else if x.state = 5 then setQ s q { x with badTail := true }
  else setQ s q { x with state := 4, reason := 0x70, run := false }

/-- The queue enters FAULTED with a reason (R323). -/
def faultQueue (s : State) (q reason : Nat) : State :=
  let x := getQ s q
  if x.state = 5 ∨ x.state = 0 then s else setQ s q { x with state := 4, reason := reason, run := false }

/-- The drain test: to IDLE when HEAD = TAIL and PENDING = 0, else to ACTIVE, where a run whose target is not reached
goes on (R323). -/
def drainTest (s : State) (q : Nat) : State :=
  let x := getQ s q
  if x.head = x.tail ∧ !x.pending then setQ s q { x with state := 1, run := false }
  else setQ s q { x with state := 2, run := decide (x.head ≠ x.target) }

/-! Descriptors -/

/-- The descriptor of a queue with a ring index. -/
def getDesc (s : State) (q idx : Nat) : Option Desc := s.qf.descs.find? (fun d => d.q == q && d.idx == idx)

/-- The descriptors with one of them updated. -/
def modDesc (s : State) (q idx : Nat) (f : Desc → Desc) : State :=
  modF s (fun x => { x with descs := x.descs.map (fun d => if d.q = q ∧ d.idx = idx then f d else d) })

/-- A WAIT that has become its queue's oldest unstarted descriptor is stamped (R334). -/
def stampQueue (s : State) (q : Nat) : State :=
  match oldestReady s q with
  | some d => if dtype d = 3 ∧ d.stamp.isNone then modDesc s q d.idx (fun d => { d with stamp := some s.now }) else s
  | none => s

/-- The work of a descriptor has ended with a status (R325); while its queue is reset every status is GUILTY (R329). -/
def endDesc (s : State) (q idx status : Nat) (words : List Byte) : State :=
  let g := decide ((getQ s q).state = 5)
  wdTouch (modDesc s q idx (fun d => if d.phase = .done then d
    else { d with phase := .done, status := if g then 0x50 else status, guilty := g, words := detail32 words })) q

/-! Fences (R319) -/

/-- The poisoned value (R319). -/
def fencePoison : Nat := 0xFFFFFFFFFFFFFFFF

/-- The counter of fence f. -/
def getFence (s : State) (f : Nat) : Nat := (mget s.qf.fences 0 f).toNat

/-- A WAIT on a fence is met: by its counter, or by the poisoned value. -/
def waitMet (s : State) (d : Desc) : Option Nat :=
  let v := getFence s (df d 0x20 2)
  if v = fencePoison then some 0x42 else if v ≥ df d 0x28 8 then some 0 else none

/-- End the started WAITs that their fences meet (R325). -/
def wakeWaits (s : State) : State :=
  s.qf.descs.foldl (fun s d =>
    if d.phase = .started ∧ dtype d = 3 then
      match waitMet s d with
      | some st => endDesc s d.q d.idx st (toLE 8 (getFence s (df d 0x20 2)))
      | none => s
    else s) s

/-- Set a fence counter and let the WAITs on it see it. -/
def setFence (s : State) (f v : Nat) : State :=
  wakeWaits (modF s (fun x => { x with fences := mset x.fences f (toW v) }))

/-- A signal: the counter becomes its maximum with the value; a poisoned fence is not changed (R319). -/
def signalFence (s : State) (f v : Nat) : State :=
  let o := getFence s f
  if o = fencePoison then s else setFence s f (max o v)

/-! Receipts (R336) -/

/-- Queue a receipt of a descriptor. -/
def addReceipt (s : State) (d : Desc) (kind status detail : Nat) (words : List Byte) (slots : Nat) : State :=
  modF s (fun f => { f with receipts := f.receipts ++
    [{ q := d.q, kind := kind, type := dtype d, status := status, detail := detail, tag := df d 0x10 8, index := d.idx
       words := detail32 words, raw := none, slots := slots, last := false }] })

/-- The 56 bytes of a receipt after its SEQ (R336 Table 6). -/
def receiptBytes (r : Rcpt) : List Byte :=
  match r.raw with
  | some b => toLE 2 r.q ++ [2#8, 0#8] ++ (b.drop 12)
  | none => toLE 2 r.q ++ toLE 1 r.kind ++ toLE 1 r.type ++ toLE 2 r.status ++ toLE 2 r.detail ++ toLE 8 r.tag
      ++ toLE 8 r.index ++ r.words

/-- The fence a descriptor signals on completion, with the value: its SIGNAL flag (R324). -/
def flagSignal (d : Desc) : Option (Nat × Nat) :=
  if (df d 2 2).testBit 1 then some (df d 4 2, df d 8 8) else none

/-- The fence and value a descriptor that has not completed would signal: a SIGNAL, or the flag (R329, R334). -/
def signals (d : Desc) : List (Nat × Nat) :=
  (if dtype d = 4 then [(df d 0x20 2, df d 0x28 8)] else []) ++ (match flagSignal d with | some x => [x] | none => [])

/-- The record of a PERSIST LAUNCH that has begun on its tiles (R328). -/
def persistOf (d : Desc) (guilty : Bool) : Option Persist :=
  if dtype d = 2 ∧ (df d 0x2B 1).testBit 2 ∧ !d.tiles.isEmpty then
    some { q := d.q, idx := d.idx, tag := df d 0x10 8, tiles := d.tiles, ends := d.ends, guilty := guilty }
  else none

/-- A descriptor whose work has ended completes: its SIGNAL flag takes effect unless a reset made it GUILTY, its receipt is
queued and holds its slots, and the watchdog returns to 0 (R325, R329, R333). A PERSIST LAUNCH that has begun leaves the
record of its tasks, whose ENDED receipt is still to come (R328); the end of a reset has already made it for one that the
reset completes (R329). -/
def completeDesc (s : State) (d : Desc) : State :=
  let s := if d.guilty then s
    else match flagSignal d with | some (f, v) => signalFence s f v | none => s
  let x := getQ s d.q
  let s := setQ s d.q (wdClear s { x with done := (x.done + 1) % 2 ^ 32 })
  let s := modF s (fun f => { f with descs := f.descs.filter (fun e => !(e.q == d.q && e.idx == d.idx)) })
  let s := if (!d.guilty ∧ d.status = 0) ∨ (d.guilty ∧ x.state = 5) then
      modF s (fun f => { f with persist := f.persist ++ (persistOf d false).toList })
    else s
  unbindTest (stampQueue (addReceipt s d 0 d.status d.detail d.words d.slots) d.q) d.q

/-! Commands on a queue's doorbell page (R320 to R323) -/

/-- A tile may write the tile page of a queue: it belongs to the queue's constellation, or coordinates a constellation
that holds a standby copy for it (R331). -/
def tilePage (s : State) (q t : Nat) : Bool :=
  match queueConst s q with
  | some k => k.tiles.testBit t || s.qf.coords.contains (k.id, t)
  | none => false

/-- TILE_DOORBELL: a tile's write of QF_TDOORBELL (R331). -/
def execTileDoorbell (t : TileId) (q : QueueId) (tail : BitVec 32) (s : State) : Host.Outcome State Fault Refusal :=
  .next (if tilePage s q.val t.val then doorbell s q.val tail.toNat else s)

/-- The Letterbox is registered and enabled, with at least 33 pages (R335). -/
def lbEnabled (s : State) : Bool := s.qf.lb.toNat.testBit 0 && decide (wfld s.qf.lbSize 19 0 ≥ 33)

/-- QUEUE_ENABLE: DISABLED to IDLE where the ring and the Letterbox are valid, else REASON BAD_CONFIG (R323). -/
def execQueueEnable (q : QueueId) (s : State) : Host.Outcome State Fault Refusal :=
  .next (hostAct s fun s =>
    let x := getQ s q.val
    if x.state ≠ 0 then s
    else if wfld x.ring 3 0 ≤ 12 ∧ lbEnabled s then idleTest (setQ s q.val { x with state := 1 }) q.val
    else setQ s q.val { x with reason := 0x71 })

/-- QUEUE_DISABLE: IDLE to DISABLED with no slots held (R323). -/
def execQueueDisable (q : QueueId) (s : State) : Host.Outcome State Fault Refusal :=
  .next (hostAct s fun s =>
    let x := getQ s q.val
    if x.state = 1 ∧ x.held = 0 then setQ s q.val { x with state := 0 } else s)

/-- Ask host memory for the next ring entries of a run, 16 at most and none past the end of the ring, once those asked
for have been taken (R323). -/
def askRing (s : State) (q need : Nat) : State :=
  let x := getQ s q
  if ringLocal x ∨ x.state ≠ 2 ∨ !x.run ∨ diff32 x.asked x.head ≥ need ∨ x.asked = x.target then s
  else if !canRead s then defer s (.ring q need)
  else
    let n := min (min 16 (diff32 x.target x.asked)) (ringEntries x - x.asked % ringEntries x)
    hostRead (setQ s q { x with asked := (x.asked + n) % 2 ^ 32 }) (.ring q x.asked) (entryAddr x x.asked) (256 * n) none false

/-- FETCH_RUN_START: the run's target is TAIL and PENDING is cleared in one step; a ring in host memory is asked for its
first entries, 16 at most; nothing is fetched in M2 (R323, R368). -/
def execFetchRunStart (q : QueueId) (s : State) : Host.Outcome State Fault Refusal :=
  .next (
    let x := getQ s q.val
    if x.state ≠ 2 ∨ !x.pending ∨ x.run ∨ s.pw.mstate = 2 ∨ (fetchEnt s q.val).isNone then s
    else askRing (setQ s q.val { x with target := x.tail, pending := false, run := true, asked := x.head }) q.val 1)

/-- A run is over when HEAD has reached its target: DRAINING (R323). -/
def runEnd (s : State) (q : Nat) : State :=
  let x := getQ s q
  if x.state = 2 ∧ x.head = x.target then setQ s q { x with state := 3, run := false } else s

/-- DRAIN_TEST (R323); an ACTIVE queue whose run has reached its target is draining. -/
def execDrainTest (q : QueueId) (s : State) : Host.Outcome State Fault Refusal :=
  .next (
    let s := runEnd s q.val
    if (getQ s q.val).state = 3 then drainTest s q.val else s)

/-! Fence registers (R335) -/

/-- FENCE_WRITE: a write of QF_FENCE(f) by the host or a tile signals the fence (R319, R335). -/
def execFenceWrite (f : Fin 16384) (v : Written (BitVec 64)) (s : State) : Host.Outcome State Fault Refusal :=
  .next (qfWrite v.by_ s fun s => signalFence s f.val v.val.toNat)

/-- FENCE_CLR: the fence returns to 0 (R319, R335). -/
def execFenceClr (f : Written (Fin 16384)) (s : State) : Host.Outcome State Fault Refusal :=
  .next (qfWrite f.by_ s fun s => modF s (fun x => { x with fences := merase x.fences f.val.val }))

end Machine
end Sys2Proof
end

