-- ==== Sys2Proof/Machine/Ats.lean ====
section
/-!
DEFINITION. Address translation: the host ranges of descriptors (R310), translation before start (R311, R312),
completions and invalidations (R314 to R316).
-/

namespace Sys2Proof
namespace Machine

/-! Ranges of a COPY (R326) -/

/-- Address space code of SRC and DST: 0 module, 1 host, 2 fabric (R325). -/
def srcSpace (d : Desc) : Nat := fld (df d 0x39 1) 1 0
def dstSpace (d : Desc) : Nat := fld (df d 0x39 1) 3 2
/-- MODE of a COPY. -/
def copyMode (d : Desc) : Nat := df d 0x38 1
/-- Cell geometry of a skewing COPY (R326). -/
def copyGeo (d : Desc) : Option MxGeo := mxGeo (df d 0x40 1) (df d 0x42 1) (df d 0x41 1)
/-- Parameter size of a put. -/
def putSize (d : Desc) : Nat := if df d 0x51 1 = 1 then 2 else 4

/-- V, the vectors of a skewed block (R204). -/
def skewV (d : Desc) (g : MxGeo) : Nat := df d 0x44 2 + 64 - g.h

/-- The source ranges of a COPY: (address, length), with the descriptor offset of the field that names each. -/
def copySrc (d : Desc) : List (Nat × Nat × Nat) :=
  match copyMode d with
  | 0 => [(df d 0x20 8, df d 0x30 8, 0x20)]
  | 1 =>
    let bits := ((copyGeo d).map (·.abits)).getD 8
    (List.range (df d 0x44 2)).map (fun m => (df d 0x20 8 + m * df d 0x48 4, ceilDiv (df d 0x46 2 * bits) 8, 0x20))
  | _ => [(df d 0x20 8, 32 * df d 0x30 8, 0x20)]

/-- The destination ranges of a COPY. -/
def copyDst (d : Desc) : List (Nat × Nat × Nat) :=
  match copyMode d with
  | 0 => [(df d 0x28 8, df d 0x30 8, 0x28)]
  | 1 =>
    match copyGeo d with
    | some g => (List.range (ceilDiv (df d 0x46 2) g.kp)).map (fun p =>
        (df d 0x28 8 + p * df d 0x4C 4, skewV d g * mxBv g, 0x28))
    | none => []
  | _ => [(df d 0x28 8, 32 * putSize d * df d 0x30 8, 0x28)]

/-- The host ranges of a descriptor: address, length, written, field offset (R310). -/
def hostRanges (d : Desc) : List (Nat × Nat × Bool × Nat) :=
  match dtype d with
  | 1 => (if srcSpace d = 1 then (copySrc d).map (fun r => (r.1, r.2.1, false, r.2.2)) else [])
      ++ (if dstSpace d = 1 then (copyDst d).map (fun r => (r.1, r.2.1, true, r.2.2)) else [])
  | 2 => if (df d 0x2B 1).testBit 3 ∧ df d 0x2E 2 > 0 then [(df d 0xD8 8, df d 0x2E 2, false, 0xD8)] else []
  | _ => []

/-! Translation (R310 to R312) -/

/-- A translation covers an address under a PASID. -/
def covers (e : TransEnt) (pasid : Option Nat) (a : Nat) : Bool :=
  e.pasid == pasid && decide (e.base ≤ a) && decide (a < e.base + e.size)

/-- The first address of a range that no translation covers. -/
def uncovered (es : List TransEnt) (hi : Nat) : Nat → Nat → Option Nat
  | 0, _ => none
  | fuel + 1, a =>
    if a ≥ hi then none
    else
      match es.find? (fun e => decide (e.base ≤ a) && decide (a < e.base + e.size)) with
      | some e => uncovered es hi fuel (e.base + e.size)
      | none => some a

/-- The lowest address of a descriptor's host ranges that no entry of it covers, with the field that names it. -/
def nextPage (d : Desc) : Option (Nat × Nat) :=
  (hostRanges d).foldl (fun best r =>
    match uncovered d.trans (r.1 + r.2.1) (d.trans.length + 2) r.1, best with
    | some a, some b => if a < b.1 then some (a, r.2.2.2) else some b
    | some a, none => some (a, r.2.2.2)
    | none, b => b) none

/-- Some read range, or write range, of a descriptor touches a page. -/
def touchesPage (d : Desc) (e : TransEnt) (write : Bool) : Bool :=
  (hostRanges d).any (fun r => r.2.2.1 == write && decide (r.1 < e.base + e.size) && decide (e.base < r.1 + r.2.1))

/-- What a page lacks for a descriptor: reason 3 NOT_PRESENT, 4 NO_READ, 5 NO_WRITE; 0 nothing (R312). -/
def pageReason (d : Desc) (e : TransEnt) : Nat :=
  if !e.rd ∧ !e.wr then 3
  else if touchesPage d e false ∧ !e.rd then 4
  else if touchesPage d e true ∧ !e.wr then 5 else 0

/-- A descriptor fails its checks: it keeps its slots, a receipt goes out and the queue enters FAULTED (R330). -/
def rejectDesc (s : State) (q idx status detail addr : Nat) : State :=
  match getDesc s q idx with
  | none => s
  | some d =>
    let s := modDesc s q idx (fun d => { d with
      phase := .faulted, status := status, detail := detail, trans := [], trOk := false, recheck := false })
    let s := addReceipt s d 0 status detail (toLE 8 addr) 0
    faultQueue s q status

/-- A descriptor is rejected by translation, with a record (R312). -/
def rejectTrans (s : State) (q idx reason detail addr : Nat) : State :=
  postErr (rejectDesc s q idx (0x20 + reason) detail addr) 31 2 0x0702 q addr
    (toLE 8 reason ++ toLE 8 idx)

/-- Entries held in the translation store. -/
def storeUsed (s : State) : Nat := s.qf.descs.foldl (fun n d => n + d.trans.length) 0

/-- A queue leaves FAULTED for ACTIVE, its run going on (R323), once no descriptor of it is faulted or being checked again. -/
def unfault (s : State) (q : Nat) : State :=
  let x := getQ s q
  if x.state ≠ 4 ∨ s.qf.descs.any (fun d => d.q == q && (d.phase == .faulted || d.recheck)) then s
  else askRing (setQ s q { x with state := 2, run := decide (x.head ≠ x.target) }) q 1

/-- A descriptor has passed its translation; where RESUME began its checks again its queue leaves FAULTED (R311, R323). -/
def passTrans (s : State) (q idx : Nat) : State :=
  let again := (getDesc s q idx).any (fun d => d.recheck)
  let s := modDesc s q idx (fun d => { d with trOk := true, recheck := false })
  if again then unfault s q else s

/-- Translate a descriptor as far as the cache allows, then send one Translation Request, whose address is that of a page
(R298, R311). -/
def translate (s : State) (q idx : Nat) : Nat → State
  | 0 => s
  | fuel + 1 =>
    match getDesc s q idx with
    | none => s
    | some d =>
      if d.phase ≠ .ready ∨ d.trOk ∨ s.hx.treqs.any (fun r => r.q == q && r.idx == idx) then s
      else
        match nextPage d with
        | none => passTrans s q idx
        | some (a, f) =>
          if d.trans.length ≥ 4096 then rejectTrans s q idx 1 f a
          else if storeUsed s ≥ 262144 then s
          else
            let pasid := queuePasid (getQ s q)
            match s.hx.cache.find? (fun e => covers e pasid a) with
            | some e =>
              let re := pageReason d e
              if re ≠ 0 then rejectTrans s q idx re f a
              else translate (modDesc s q idx (fun d => { d with trans := d.trans ++ [e] })) q idx fuel
            | none =>
              if s.hx.treqs.length ≥ 64 then s
              else if !canSend s then defer s (.trans q idx)
              else
                let id := s.hx.nextId
                let nw := !(hostRanges d).any (fun r => r.2.2.1 && decide (r.1 < a / 4096 * 4096 + 4096) && decide (a < r.1 + r.2.1))
                let s := traffic { s with hx := { s.hx with
                  nextId := id + 1, trReqs := s.hx.trReqs + 1
                  treqs := s.hx.treqs ++ [{ id := id, q := q, idx := idx, addr := a, stale := false, invs := [] }] } }
                emit s (.transReq id (a / 4096 * 4096) pasid nw)

/-- Go on translating every descriptor that waits for it. -/
def translateAll (s : State) : State :=
  s.qf.descs.foldl (fun s d => if d.phase = .ready ∧ !d.trOk then translate s d.q d.idx 4098 else s) s

/-- Begin the translation of a descriptor that has passed its checks; with ATS off its addresses are bus addresses
(R311, R313). -/
def beginTranslate (s : State) (q idx : Nat) : State :=
  match getDesc s q idx with
  | none => s
  | some d =>
    if !s.hx.cfg.ats ∨ (hostRanges d).isEmpty then passTrans (modDesc s q idx (fun d => { d with trans := [] })) q idx
    else translate (modDesc s q idx (fun d => { d with trOk := false, trans := [] })) q idx 4098

/-- The page kept of a translation: the largest of 1 GiB, 2 MiB and 4 KiB that is aligned, contains the address and
lies within the translated range (R310). -/
def keptPage (a base size : Nat) : Option (Nat × Nat) :=
  ([0x40000000, 0x200000, 0x1000] : List Nat).findSome? (fun z =>
    let b := a / z * z
    if base ≤ b ∧ b + z ≤ base + size then some (b, z) else none)

/-- An Invalidate Request since the request was sent overlaps the page of its completion (R316). -/
def overtaken (r : TransReq) (b z : Nat) : Bool := r.invs.any (fun i => decide (i.1 < b + z) && decide (b < i.1 + i.2))

/-- TRANSLATION_COMPLETION of request `id`: `ok` false for Unsupported Request, Completer Abort or poisoned data; else the
range translated, its target and its permissions (R310 to R312). One that an invalidation has overtaken is discarded and
asked for again (R316). -/
def execTranslationCompletion (id : Nat) (ok : Bool) (base size target : Nat) (rd wr : Bool) (s : State) :
    Host.Outcome State Fault Refusal :=
  .next (
    match s.hx.treqs.find? (fun r => r.id == id) with
    | none => s
    | some r =>
      let s := traffic { s with hx := { s.hx with treqs := s.hx.treqs.filter (fun x => x.id != id) } }
      match getDesc s r.q r.idx with
      | none => translateAll s
      | some d =>
        let f := ((nextPage d).map (·.2)).getD 0
        if r.stale then translateAll s
        else if !ok then translateAll (rejectTrans s r.q r.idx 2 f r.addr)
        else
          match keptPage r.addr base size with
          | none => translateAll (rejectTrans s r.q r.idx 2 f r.addr)
          | some (b, z) =>
            if overtaken r b z then translateAll s else
            let e : TransEnt := { pasid := queuePasid (getQ s r.q), base := b, size := z, target := target + (b - base), rd := rd, wr := wr }
            let c := s.hx.cache ++ [e]
            let s := { s with hx := { s.hx with cache := c.drop (c.length - 2048) } }
            let re := pageReason d e
            if re ≠ 0 then translateAll (rejectTrans s r.q r.idx re f r.addr)
            else translateAll (modDesc s r.q r.idx (fun d => { d with trans := d.trans ++ [e] })))

/-! Invalidation (R314, R315) -/

/-- A translation matches an Invalidate Request: its range, for its PASID or global. -/
def invMatches (i : Inval) (e : TransEnt) : Bool :=
  (i.pasid.isNone || i.pasid == e.pasid) && decide (i.base < e.base + e.size) && decide (e.base < i.base + i.size)

/-- A read of the constants of a LAUNCH is outstanding. -/
def constsOut (s : State) (q idx : Nat) : Bool :=
  s.hx.hreads.any (fun r => match r.2 with | .consts a b _ => a == q && b == idx | _ => false)

/-- A descriptor has started for the purposes of an invalidation: a COPY that has started, a LAUNCH from the first read of
its constants on (R314, R327). -/
def sending (s : State) (d : Desc) : Bool := d.phase == .started || constsOut s d.q d.idx

/-- A descriptor that an invalidation waits for has completed: every read it sent has its completion and every write has
been sent (R314). -/
def invalMet (s : State) (q idx : Nat) : Bool :=
  !constsOut s q idx && (match getDesc s q idx with | some d => d.phase == .done || dtype d != 1 | none => true)

/-- Send the Invalidation Completions that are due, in arrival order (R314, R315). -/
def invalDrain (s : State) : Nat → State
  | 0 => s
  | fuel + 1 =>
    match s.hx.invals with
    | [] => s
    | i :: r =>
      if !i.waits.all (fun w => invalMet s w.1 w.2) then s
      else if !canSend s then defer s .inval
      else invalDrain (emit (traffic { s with hx := { s.hx with invals := r } }) (.invalDone i.itag)) fuel

/-- INVALIDATE_REQUEST: `pasid` none for a global one (R314); with 32 outstanding it is discarded, counted and recorded
(R315). -/
def execInvalidateRequest (itag : Nat) (pasid : Option Nat) (base size : Nat) (s : State) : Host.Outcome State Fault Refusal :=
  .next (
    let s := traffic s
    if s.hx.invals.length ≥ 32 then
      postErr { s with hx := { s.hx with invOverflow := (s.hx.invOverflow + 1) % 65536 } } 31 2 0x0703 0 0 (toLE 1 itag)
    else
      let i : Inval := { itag := itag, pasid := pasid, base := base, size := size, at_ := s.now, waits := [] }
      let held := (s.qf.descs.filter (fun d => sending s d && d.trans.any (invMatches i))).map (fun d => (d.q, d.idx))
      let forIt := fun (r : TransReq) => pasid.isNone || pasid == queuePasid (getQ s r.q)
      let overlaps := fun (r : TransReq) => decide (base ≤ r.addr) && decide (r.addr < base + size)
      let s := { s with hx := { s.hx with
        cache := s.hx.cache.filter (fun e => !invMatches i e)
        treqs := s.hx.treqs.map (fun r =>
          if forIt r then { r with stale := r.stale || overlaps r, invs := r.invs ++ [(base, size)] } else r)
        invals := s.hx.invals ++ [{ i with waits := held }] } }
      let s := modF s (fun f => { f with descs := f.descs.map (fun d =>
        if d.trans.any (invMatches i) ∧ !held.contains (d.q, d.idx) then
          { d with trans := d.trans.filter (fun e => !invMatches i e), trOk := d.trOk && (d.phase != .ready || constRef d && constsRead d) }
        else d) })
      invalDrain (translateAll s) 33)

/-- INVAL_LIMIT_EXPIRY: a started descriptor that still holds a matching translation INVAL_LIMIT ticks after the request
stops sending; it ends with INVALIDATED once its reads have completed (R314). -/
def execInvalLimitExpiry (itag : Nat) (s : State) : Host.Outcome State Fault Refusal :=
  .next (
    match s.hx.invals.find? (fun i => i.itag == itag) with
    | none => s
    | some i =>
      if s.now < i.at_ + s.hx.invalLimit then s
      else modF s (fun f => { f with descs := f.descs.map (fun d =>
        if i.waits.contains (d.q, d.idx) ∧ !invalMet s d.q d.idx ∧ d.phase ≠ .done ∧ d.copy.stop.isNone then
          { d with copy := { d.copy with stop := some 0x31 } } else d) }))

/-- ATS_DISABLE: clearing ATS Control Enable discards every translation; descriptors not started use bus addresses
(R313, R316). -/
def execAtsDisable (s : State) : Host.Outcome State Fault Refusal :=
  .next (
    if !s.hx.cfg.ats then s
    else
      let s := traffic { s with hx := { s.hx with
        cfg := { s.hx.cfg with ats := false }, cache := [], treqs := s.hx.treqs.map (fun r => { r with stale := true }) } }
      s.qf.descs.foldl (fun s d =>
        if d.phase = .ready then passTrans s d.q d.idx else s)
        (modF s (fun f => { f with descs := f.descs.map (fun d => { d with trans := [] }) })))

/-- DESCRIPTOR_COMPLETE (R325): the entries it held in the translation store serve descriptors that wait for them (R311). -/
def execDescriptorComplete (q : QueueId) (idx : BitVec 32) (s : State) : Host.Outcome State Fault Refusal :=
  .next (
    match getDesc s q.val idx.toNat with
    | some d => if d.phase = .done then translateAll (completeDesc s d) else s
    | none => s)

end Machine
end Sys2Proof
end

