-- ==== Sys2Proof/Machine/Fetch.lean ====
section
/-!
DEFINITION. Fetching and checking descriptors (R324, R330, R480), starting them (R325), and the commands RESUME, CANCEL
and RESET with the reset of a queue (R323, R329).
-/

namespace Sys2Proof
namespace Machine

/-! Reserved bytes of a descriptor (R10, R324, R325) -/

/-- The bits in use of each byte range of a descriptor: (offset, bytes, mask). -/
def usedFields (d : Desc) : List (Nat × Nat × Nat) :=
  let all := fun n => 2 ^ (8 * n) - 1
  let w := fun o n => (o, n, all n)
  [w 0 1, w 1 1, (2, 2, 3), (4, 2, 0x3FFF), w 8 8, w 0x10 8] ++
  (match dtype d with
   | 1 =>
     [w 0x20 8, w 0x28 8, w 0x30 8, w 0x38 1, (0x39, 1, 0xF), (0x3A, 1, 0xF), w 0x3C 2] ++
     (match copyMode d with
      | 1 => [w 0x40 1, w 0x41 1, w 0x42 1, w 0x44 2, w 0x46 2, w 0x48 4, w 0x4C 4]
      | 2 => [w 0x50 1, w 0x51 1, w 0x54 4, w 0x58 8]
      | _ => [])
   | 2 =>
     let lf := df d 0x2B 1
     [w 0x20 8, w 0x28 1, w 0x29 1, w 0x2A 1, (0x2B, 1, 0xF), w 0x2C 2, w 0x2E 2, (0x30, 4, 0xFFFFFF), w 0x34 2] ++
     (List.range 8).flatMap (fun n => [(0x38 + 16 * n, 8, if n = 6 then 2 ^ 63 - 1 else 2 ^ 63 - 1 - 0xFFF * 2 ^ 48),
       (0x40 + 16 * n, 8, 2 ^ 48 - 1)]) ++
     [(0xB8, 8, 2 ^ 48 - 1), w 0xC0 8, (0xC8, 8, 2 ^ 48 - 0x1000), w 0xD0 2, w 0xD2 2] ++
     (if lf.testBit 3 then [w 0xD8 8] else [])
   | 3 => [(0x20, 2, 0x3FFF), w 0x28 8]
   | 4 => [(0x20, 2, 0x3FFF), w 0x28 8]
   | 5 => [w 0x20 224]
   | 6 => [w 0x20 8, w 0x28 4, w 0x2C 1]
   | _ => [w 0x20 224])

/-- The mask of bits in use of byte b of a descriptor. -/
def usedByte (fs : List (Nat × Nat × Nat)) (b : Nat) : Nat :=
  fs.foldl (fun m f => if f.1 ≤ b ∧ b < f.1 + f.2.1 then m ||| (f.2.2 >>> (8 * (b - f.1))) % 256 else m) 0

/-- Offsets of bytes that hold a nonzero reserved bit. -/
def reservedSet (d : Desc) : List Nat :=
  let fs := usedFields d
  (List.range 256).filter (fun b => (d.bytes.getD b 0#8).toNat &&& (255 - usedByte fs b) != 0)

/-- Ring entries that a header requires: 1, or for a LAUNCH with inline constants 1 + ⌈CONST_LEN / 256⌉ (R324). -/
def entriesNeeded (h : List Byte) : Nat :=
  if leAt h 0 1 = 2 ∧ leAt h 0x2E 2 ≤ 1024 ∧ !(leAt h 0x2B 1).testBit 3 then 1 + ceilDiv (leAt h 0x2E 2) 256 else 1

/-- Offsets of the fields that make a descriptor MALFORMED (R330). -/
def malformed (d : Desc) : List Nat :=
  let bad := fun (b : Bool) (o : Nat) => if b then [o] else []
  reservedSet d ++ bad (dtype d = 0 || dtype d > 6) 0 ++ bad (df d 1 1 != entriesNeeded d.bytes) 1 ++
  (match dtype d with
   | 1 =>
     let m := copyMode d
     let len := df d 0x30 8
     bad (m > 2) 0x38 ++ bad (srcSpace d = 3 || dstSpace d = 3 || (m == 2 && dstSpace d = 1)) 0x39
       ++ bad (srcSpace d = 2 && df d 0x20 8 ≥ 2 ^ 60) 0x20 ++ bad (dstSpace d = 2 && df d 0x28 8 ≥ 2 ^ 60) 0x28
       ++ bad (if m = 1 then len != 0 else len = 0 || len > 2 ^ 40) 0x30
       ++ (if m = 1 then bad (copyGeo d).isNone 0x40
              ++ bad (df d 0x44 2 = 0 || df d 0x44 2 > 4096) 0x44 ++ bad (df d 0x46 2 = 0 || df d 0x46 2 > 8192) 0x46
           else if m = 2 then bad (df d 0x50 1 > 63) 0x50 ++ bad (df d 0x51 1 > 1) 0x51 else [])
   | 6 => bad (df d 0x28 4 > 0x400000) 0x28 ++ bad (df d 0x2C 1 > 1) 0x2C
   | _ => [])

/-! Address ranges (R39, R330) -/

/-- The first byte of a module range that is an address error: a hole, an unmapped region, a tile store window beyond
its local store, a control space (R39; assumption 43). -/
def firstBad (s : State) (a n : Nat) : Option Nat :=
  if n = 0 then none
  else
    let memPart := if a < 2 ^ 40 then
        (List.range ((min (a + n) (2 ^ 40) - 1) / 2 ^ 30 + 1 - a / 2 ^ 30)).findSome? (fun i =>
          let lo := max a ((a / 2 ^ 30 + i) * 2 ^ 30)
          match homeOf s lo with | some _ => none | none => some lo)
      else none
    match memPart with
    | some x => some x
    | none =>
      if a + n ≤ 2 ^ 40 then none
      else
        let lo := max a (2 ^ 40)
        let hi := a + n
        let top := 0x10080000000
        if lo ≥ top then some lo
        else
          match (List.range ((min hi top - 1 - 2 ^ 40) / 0x200000 + 1 - (lo - 2 ^ 40) / 0x200000)).findSome? (fun i =>
              let g := (lo - 2 ^ 40) / 0x200000 + i
              let from_ := max lo (2 ^ 40 + g * 0x200000)
              let upTo := min hi (2 ^ 40 + (g + 1) * 0x200000)
              let T := getT s g
              if T.tstate = .t3 ∨ T.retired then some from_
              else
                let lim := 2 ^ 40 + g * 0x200000 + T.lsBytes
                if from_ ≥ lim then some from_ else if upTo > lim then some lim else none) with
          | some x => some x
          | none => if hi > top then some top else none

/-- First failing range of a list in one space: the field's offset and the failing address. -/
def badRange (s : State) (space : Nat) (rs : List (Nat × Nat × Nat)) : Option (Nat × Nat) :=
  rs.findSome? (fun r =>
    if space = 1 then none
    else if space = 2 ∧ r.1 / 2 ^ 48 ≠ ownId s then none
    else
      let a := if space = 2 then r.1 % 2 ^ 48 else r.1
      (firstBad s a r.2.1).map (fun x => (r.2.2, x)))

/-- The module ranges of a LAUNCH's segments: field offset, base, length; seg2 moves by STACK_STRIDE per context, seg6
on another module is not checked (R325, R330). -/
def launchRanges (s : State) (d : Desc) : List (Nat × Nat × Nat) :=
  (List.range 8).flatMap (fun n =>
    let a := df d (0x38 + 16 * n) 8
    let l := df d (0x40 + 16 * n) 8 % 2 ^ 48
    if n = 3 ∨ l = 0 ∨ (n = 6 ∧ fld a 59 48 ≠ ownId s) then []
    else if n = 2 then (List.range (df d 0x2A 1)).map (fun c => (0x38 + 16 * n, (a % 2 ^ 48 + c * df d 0xC0 8) % 2 ^ 48, l))
    else [(0x38 + 16 * n, a % 2 ^ 48, l)])

/-- The first byte of a range that a LAUNCH of constellation k may not reach (R60, R330). -/
def launchBad (s : State) (k : Constel) (a n : Nat) : Option Nat :=
  match firstBad s a n with
  | some x => some x
  | none =>
    if a + n ≤ 2 ^ 40 then
      (List.range ((a + n - 1) / 2 ^ 30 + 1 - a / 2 ^ 30)).findSome? (fun i =>
        let r := a / 2 ^ 30 + i
        let other := match s.chart with
          | some c => c.consts.any (fun j => j.id != k.id && j.regions.testBit r)
          | none => true
        if other then some (max a (r * 2 ^ 30)) else none)
    else if a < 2 ^ 40 then some (2 ^ 40)
    else
      (List.range ((a + n - 1 - 2 ^ 40) / 0x200000 + 1 - (a - 2 ^ 40) / 0x200000)).findSome? (fun i =>
        let g := (a - 2 ^ 40) / 0x200000 + i
        if k.tiles.testBit g then none else some (max a (2 ^ 40 + g * 0x200000)))

/-! Tiles and resources (R149, R327) -/

/-- A tile is selectable: in its constellation's TILES, neither fenced nor held in tile reset nor leaving (R327). -/
def selectable (s : State) (k : Constel) (t : Nat) : Bool :=
  k.tiles.testBit t && !fenced s (t / 64) && !(getT s t).held && !(getT s t).chartLeave

/-- The tiles a LAUNCH selects (R327). -/
def selected (s : State) (d : Desc) : List Nat :=
  match queueConst s d.q with
  | some k => (List.range (df d 0xD2 2)).filterMap (fun i =>
      let t := df d 0xD0 2 + i
      if t < 1024 && selectable s k t then some t else none)
  | none => []

/-- L in bytes of a LAUNCH (R325). -/
def launchL (s : State) (d : Desc) : Nat :=
  let steps := df d 0x29 1
  let steps := if steps ≠ 0xFF then steps else
    match queueConst s d.q with
    | some k => if k.lsSteps ≠ 0xFF then k.lsSteps else ((s.chart.map (·.lsSteps)).getD 0)
    | none => 0
  steps * 0x40000

/-- The field that breaks the limits of R149 (R330 RESOURCES). -/
def resourceField (s : State) (d : Desc) : Option Nat :=
  let n := df d 0x28 1
  let l := df d 0x29 1
  let k := df d 0x2A 1
  let sh := df d 0x2C 2
  let cl := df d 0x2E 2
  let L := launchL s d
  let S := sh * 4096
  let P := if S > 0 then L / S else 8
  if !(n == 8 || n == 16 || n == 32 || n == 64) then some 0x28
  else if l > 8 ∧ l ≠ 0xFF then some 0x29
  else if k = 0 ∨ k > 8 then some 0x2A
  else if sh > 512 ∨ S > L then some 0x2C
  else if k > min 8 (min (256 / n) P) then some 0x2A
  else if cl > 1024 ∨ (S > 0 ∧ cl > S) ∨ cl > L then some 0x2E
  else none

/-- The outcome of the checks of R330 in their order: status, DETAIL, failing address; none where all pass. -/
def checkDesc (s : State) (d : Desc) : Option (Nat × Nat × Nat) :=
  match (malformed d) with
  | o :: r => some (1, r.foldl min o, 0)
  | [] =>
    let flags := ((boundEnt s d.q).map (·.flags)).getD 0
    let accepted := match dtype d with
      | 1 => flags.testBit 3
      | 2 => flags.testBit 1
      | 5 => flags.testBit 2
      | 6 => d.q = 0
      | _ => true
    if !accepted || (s.chart.isNone && dtype d != 6) then some (2, 0, 0)
    else
      match dtype d with
      | 1 =>
        match badRange s (srcSpace d) (copySrc d), badRange s (dstSpace d) (copyDst d) with
        | some x, _ => some (3, x.1, x.2)
        | none, some x => some (3, x.1, x.2)
        | none, none =>
          match (if copyMode d = 2 then badRange s 0 [(df d 0x58 8, df d 0x30 8, 0x58)] else none) with
          | some x => some (3, x.1, x.2)
          | none =>
            match queueConst s d.q with
            | some k => if df d 0x3C 2 < 1024 ∧ selectable s k (df d 0x3C 2) then none else some (6, 0x3C, 0)
            | none => some (6, 0x3C, 0)
      | 2 =>
        match queueConst s d.q with
        | none => some (2, 0, 0)
        | some k =>
          if df d 0x68 8 ≠ 0 then some (3, 0x68, 0)
          else if df d 0x70 8 ≠ 0 then some (3, 0x70, 0)
          else
            match (launchRanges s d).findSome? (fun r => (launchBad s k r.2.1 r.2.2).map (fun x => (r.1, x))) with
            | some x => some (3, x.1, x.2)
            | none =>
              match resourceField s d with
              | some o => some (4, o, 0)
              | none =>
                if (df d 0x2B 1).testBit 1 ∧ permit s 0 = false then some (5, 0x2B, 0)
                else if df d 0xD0 2 + df d 0xD2 2 > 1024 then some (6, 0xD0, 0)
                else if (selected s d).isEmpty then some (6, 0xD0, 0)
                else none
      | 6 =>
        if df d 0x2C 1 = 0 then
          (firstBad s (df d 0x20 8) (df d 0x28 4)).map (fun x => (3, 0x20, x))
        else none
      | _ => none

/-- The checks of a descriptor, then its translation (R311, R330). -/
def checkAndTranslate (s : State) (q idx : Nat) : State :=
  match getDesc s q idx with
  | none => s
  | some d =>
    match checkDesc s d with
    | some (st, o, a) => rejectDesc s q idx st o a
    | none => beginTranslate (modDesc s q idx (fun d => { d with phase := .ready, status := 0, detail := 0 })) q idx

/-! Fetching (R323, R324, R480) -/

/-- The front end may fetch from a queue: bound, ACTIVE with a run in progress, HX working. -/
def mayFetch (s : State) (q : Nat) : Bool :=
  let x := getQ s q
  x.state == 2 && x.run && (fetchEnt s q).isSome && !s.hx.stopped

/-- The bytes of n entries from HEAD: from host memory as the completion gave them, or from module memory; none where
they cannot be had yet. -/
def entryBytes (s : State) (q n : Nat) (host : List Byte) (errs : List SymErr) : Option (List Byte × State) :=
  let x := getQ s q
  if !ringLocal x then
    if diff32 x.asked x.head ≥ n then some (slice host 0 (256 * n), s) else none
  else
    (List.range n).foldl (fun acc i => acc.bind (fun (b, s) =>
      match cohReadFrom s 31 (entryAddr x (x.head + i)) 256 0 true errs with
      | none => none
      | some r => if r.st ≠ 0 ∨ r.pois.any id then none else some (b ++ r.bytes, r.s))) (some ([], s))

/-- Host reads of a queue's ring that have been taken leave the list. -/
def dropRingReads (s : State) (q : Nat) : State :=
  { s with hx := { s.hx with hreads := s.hx.hreads.filter (fun r => match r.2 with | .ring p _ => p != q | _ => true) } }

/-- RING_FETCH_DONE: the next descriptor of queue q arrives, `host` the entries from HEAD on that host memory gave for a
ring there; it takes its slots, HEAD moves past its entries, and it is checked (R318, R324, R330). -/
def execRingFetchDone (q : QueueId) (host : List Byte) (errs : List SymErr) (s : State) : Host.Outcome State Fault Refusal :=
  .next (
    let q := q.val
    if !mayFetch s q then s
    else
      let x := getQ s q
      if x.head = x.target then runEnd s q
      else
        match entryBytes s q 1 host errs with
        | none => askRing s q 1
        | some (h, _) =>
          let n := entriesNeeded h
          if n > diff32 x.target x.head then setQ s q { x with run := false }
          else if !slotsFree s q n then s
          else
            match entryBytes s q n host errs with
            | none => askRing s q n
            | some (b, s) =>
              let idx := x.head
              let x := { x with head := (x.head + n) % 2 ^ 32, held := x.held + n }
              let x := if ringLocal x then { x with asked := x.head } else x
              let s := setQ s q x
              let s := if x.asked = x.head then dropRingReads s q else s
              let d : Desc := { q := q, idx := idx, bytes := b, slots := n, phase := .ready, status := 0, detail := 0
                                words := [], trOk := false, trans := [], stamp := none, copy := CopySt.reset, consts := []
                                tiles := [], ends := [], delivered := none, recheck := false, guilty := false }
              let s := modF s (fun f => { f with descs := f.descs ++ [d] })
              askRing (runEnd (stampQueue (checkAndTranslate s q idx) q) q) q 1)

/-- Ring entry i of a queue cannot be read: the queue enters FAULTED, HEAD stays, a record with the entry's address is
posted and no receipt (R480). -/
def ringFault (s : State) (q reason i : Nat) : State :=
  let x := getQ s q
  let s := dropRingReads (setQ s q { x with asked := x.head }) q
  postErr (faultQueue s q reason) 31 2 0x0705 q (entryAddr x i) (toLE 8 reason ++ toLE 8 x.head)

/-- The REASON for which an entry in module memory cannot be read, with the state after the fabric's record (R258, R480). -/
def entryFault (s : State) (q i : Nat) : Option (Nat × State) :=
  let a := entryAddr (getQ s q) i
  let st := statusFrom s 31 a 256
  if st.1 = 1 then some (0x03, st.2)
  else if st.1 = 2 then some (0x41, st.2)
  else if memPoisoned s a 256 then some (0x40, s)
  else none

/-- The entries of the descriptor at HEAD, as far as its header tells in the run. -/
def headEntries (s : State) (q : Nat) : Nat :=
  match entryBytes s q 1 [] [] with
  | some (h, _) => min (entriesNeeded h) (diff32 (getQ s q).target (getQ s q).head)
  | none => 1

/-- RING_FETCH_FAULT: an entry of the descriptor at HEAD cannot be read; a host read of it failed, or it is in module memory
at an address error, on a fenced domain or in a poisoned sector (R480). -/
def execRingFetchFault (q : QueueId) (s : State) : Host.Outcome State Fault Refusal :=
  .next (
    let q := q.val
    let x := getQ s q
    if !mayFetch s q ∨ x.head = x.target then s
    else if !ringLocal x then (if x.asked = x.head then s else ringFault s q 0x30 x.head)
    else
      let bad := (List.range (headEntries s q)).findSome? (fun i =>
        (entryFault s q (x.head + i)).map (fun r => (x.head + i, r)))
      match bad with
      | some (i, reason, s1) => ringFault s1 q reason i
      | none => s)

/-! Starting (R325) -/

/-- A descriptor may start: the oldest unstarted one of its queue, translated, and behind every earlier one's completion
where it sets BARRIER or is a WAIT, SIGNAL or AMEND (R311, R325). -/
def mayStart (s : State) (q : Nat) : Option Desc :=
  match oldestReady s q with
  | none => none
  | some d =>
    let first := match s.qf.descs.find? (fun e => e.q == q) with | some e => e.idx == d.idx | none => false
    let last := (df d 2 2).testBit 0 || dtype d == 3 || dtype d == 4 || dtype d == 6
    if d.phase ≠ .ready ∨ !d.trOk ∨ (getQ s q).state = 5 ∨ (last ∧ !first) then none else some d

/-- The part of n bytes at module address a in each tile window that they meet: tile, offset, length (R36). -/
def windowParts (a n : Nat) : List (Nat × Nat × Nat) :=
  let lo := max a (2 ^ 40)
  let hi := min (a + n) 0x10080000000
  if hi ≤ lo then []
  else (List.range ((hi - 1 - 2 ^ 40) / 0x200000 + 1 - (lo - 2 ^ 40) / 0x200000)).map (fun i =>
    let g := (lo - 2 ^ 40) / 0x200000 + i
    let x := max lo (2 ^ 40 + g * 0x200000)
    (g, x - 2 ^ 40 - g * 0x200000, min hi (2 ^ 40 + (g + 1) * 0x200000) - x))

/-- The local-store spans of tile windows that a COPY reads or writes: tile, offset, length, writes (R201). -/
def copyWindows (s : State) (d : Desc) : List (Nat × Nat × Nat × Bool) :=
  let f := fun (space : Nat) (wr : Bool) (rs : List (Nat × Nat × Nat)) => rs.flatMap (fun r =>
    if space = 0 ∨ (space = 2 ∧ r.1 / 2 ^ 48 = ownId s) then
      (windowParts (r.1 % 2 ^ 48) r.2.1).map (fun w => (w.1, w.2.1, w.2.2, wr)) else [])
  f (srcSpace d) false (copySrc d) ++ (if copyMode d = 2 then f 0 false [(df d 0x58 8, df d 0x30 8, 0)]
    else f (dstSpace d) true (copyDst d))

/-- A transfer enters the queue of its windows' tiles (R201). -/
def addDma (s : State) (d : Desc) : State :=
  (copyWindows s d).foldl (fun s w => modT s w.1 (fun T => { T with dma := T.dma ++ [(w.2.1, w.2.2.1, w.2.2.2)] })) s

/-- A transfer has ended. -/
def dropDma (s : State) (d : Desc) : State :=
  (copyWindows s d).foldl (fun s w => modT s w.1 (fun T => { T with dma := T.dma.erase (w.2.1, w.2.2.1, w.2.2.2) })) s

/-- DESCRIPTOR_START: the oldest unstarted descriptor of a queue starts, if it may: a COPY, SERVICE or AMEND has begun,
a WAIT is met at once where its fence allows, a SIGNAL signals and ends (R325). A LAUNCH starts by LAUNCH_START. -/
def execDescriptorStart (q : QueueId) (s : State) : Host.Outcome State Fault Refusal :=
  .next (
    match mayStart s q.val with
    | none => s
    | some d =>
      if dtype d = 2 then s
      else
        let s := wdTouch (modDesc s d.q d.idx (fun d => { d with phase := .started })) d.q
        let s := match dtype d with
          | 1 => addDma s d
          | 3 => wakeWaits s
          | 4 => endDesc (signalFence s (df d 0x20 2) (df d 0x28 8)) d.q d.idx 0 []
          | _ => s
        stampQueue s d.q)

/-! Commands in FAULTED (R323) -/

/-- The faulted descriptor of a queue, also while it is checked again. -/
def faultedDesc (s : State) (q : Nat) : Option Desc :=
  s.qf.descs.find? (fun d => d.q == q && (d.phase == .faulted || d.recheck))

/-- QUEUE_RESUME: a faulted descriptor is checked again from its first check, and its queue leaves FAULTED when it has passed
the last, its translation; without one the drain test runs (R323). The watchdog returns to 0 (R333). -/
def execQueueResume (q : QueueId) (s : State) : Host.Outcome State Fault Refusal :=
  .next (hostAct s fun s =>
    let x := getQ s q.val
    if x.state ≠ 4 then s
    else
      let s := setQ s q.val (wdClear s x)
      match faultedDesc s q.val with
      | some d => translateAll (checkAndTranslate (modDesc s q.val d.idx (fun d => { d with recheck := true })) q.val d.idx)
      | none => askRing (drainTest s q.val) q.val 1)

/-- QUEUE_CANCEL: a faulted descriptor completes with CANCELLED, its store entries free, and its queue leaves FAULTED where
no other of its descriptors is faulted; without one the drain test runs (R316, R323). -/
def execQueueCancel (q : QueueId) (s : State) : Host.Outcome State Fault Refusal :=
  .next (hostAct s fun s =>
    let x := getQ s q.val
    if x.state ≠ 4 then s
    else
      match faultedDesc s q.val with
      | some d =>
        let s := { s with hx := { s.hx with treqs := s.hx.treqs.filter (fun r => !(r.q == d.q && r.idx == d.idx)) } }
        translateAll (unfault (modDesc s q.val d.idx (fun d => { d with
          phase := .done, status := 0x51, detail := 0, words := [], trans := [], recheck := false })) q.val)
      | none => askRing (drainTest s q.val) q.val 1)

/-! Reset of a queue (R329) -/

/-- Steps 1 to 3 of a queue's reset, with the fences step 6 poisons noted: fetching stops, descriptors that have not
started complete with GUILTY, started COPYs stop sending (R329). -/
def resetBegin (s : State) (q verdict : Nat) : State :=
  let x := getQ s q
  if x.state = 0 ∨ x.state = 5 then s
  else
    let mine := s.qf.descs.filter (fun d => d.q == q)
    let s := dropRingReads s q
    let s := { s with hx := { s.hx with treqs := s.hx.treqs.filter (fun r => r.q != q) } }
    let s := modF s (fun f => { f with descs := f.descs.map (fun d =>
      if d.q ≠ q then d
      else if d.phase = .started then
        (if dtype d = 1 then { d with copy := { d.copy with stop := some 0x50 } } else d)
      else { d with phase := .done, status := 0x50, guilty := true, recheck := false, detail := 0, trans := []
                    words := if d.phase = .done then d.words else [] }) })
    let oldest := ((mine.head?).map (·.idx)).getD 0
    let s := setQ s q { x with state := 5, run := false, badTail := false, verdict := verdict, target := oldest
                               poison := (mine.flatMap signals).map (·.1) }
    translateAll s

/-- QUEUE_RESET: the RESET command acts as guilt does, without a record (R323, R329). -/
def execQueueReset (q : QueueId) (s : State) : Host.Outcome State Fault Refusal :=
  .next (hostAct s fun s => resetBegin s q.val 0)

/-- WATCHDOG_EXPIRY: a queue whose watchdog has reached WATCHDOG is guilty (R333), but for a descriptor whose completion is
due in the same tick, which comes first (R338). -/
def execWatchdogExpiry (q : QueueId) (s : State) : Host.Outcome State Fault Refusal :=
  .next (
    let x := getQ s q.val
    match boundEnt s q.val with
    | some e =>
      if e.watchdog > 0 ∧ x.wdRun ∧ wdCount s x ≥ e.watchdog ∧ !s.qf.descs.any (fun d => d.q == q.val && d.phase == .done) then
        resetBegin s q.val 1
      else s
    | none => s)

/-- The launch of a queue stops on a tile as by a tile reset; the tile goes to T1 with no launch, not held (R329 step
4). -/
def releaseTile (s : State) (t : Nat) : State :=
  let s := stopTile s t endFault
  let s := reclock s t .t1 (getT s t).level (getT s t).duty
  modT s t (fun T => { T with launch := none, launchEnd := none, lsBytes := 0, idleMark := s.now })

/-- The tiles on which a launch of queue q has not ended. -/
def queueTiles (s : State) (q : Nat) : List Nat :=
  (s.tiles.filter (fun p => match p.2.launch with | some (k, _) => k == q && p.2.launchEnd.isNone | none => false)).map (·.1)

/-- The receipt words of a LAUNCH (R336 Table 6). -/
def launchWords (tiles : Nat) (ends : List (Nat × Nat × Nat × Nat)) : List Byte :=
  let bad := ends.filter (fun e => e.2.1 != 0)
  match bad with
  | [] => toLE 2 tiles
  | e :: _ => toLE 2 tiles ++ toLE 2 bad.length ++ toLE 2 e.1 ++ toLE 2 e.2.2.1 ++ toLE 8 e.2.2.2

/-- The receipt words of a started descriptor that a reset stops (R329, R336 Table 6). -/
def guiltyWords (s : State) (d : Desc) : List Byte :=
  match dtype d with
  | 2 => launchWords d.tiles.length d.ends
  | 3 => toLE 8 (getFence s (df d 0x20 2))
  | 6 => toLE 8 ((s.chart.map (·.serial)).getD 0)
  | _ => []

/-- The launch of descriptor idx of queue q has been stopped on tile t by a reset: it counts as ended there, not faulted, and
the record of a PERSIST LAUNCH as guilty (R328, R329). -/
def noteStop (s : State) (q idx t : Nat) : State :=
  let e := (t, 0, 0, 0)
  let s := modDesc s q idx (fun d => { d with ends := d.ends ++ [e] })
  modF s (fun f => { f with persist := f.persist.map (fun p =>
    if p.q = q ∧ p.idx = idx then { p with guilty := true, ends := p.ends ++ [e] } else p) })

/-- Steps 4 to 6 of a queue's reset: its launches that have not ended stop, those that have keep their outcome (R329). -/
def resetWork (s : State) (q : Nat) : State :=
  let x := getQ s q
  let began := (s.qf.descs.filter (fun d => d.q == q && d.phase == .done)).flatMap (fun d => (persistOf d false).toList)
  let s := modF s (fun f => { f with persist := f.persist ++ began })
  let s := (queueTiles s q).foldl (fun s t =>
    match (getT s t).launch with
    | some (_, idx) => releaseTile (noteStop s q idx t) t
    | none => s) s
  let s := modF s (fun f => { f with
    descs := f.descs.map (fun d => if d.q = q ∧ d.phase = .started ∧ dtype d ≠ 1 then
      { d with phase := .done, status := 0x50, guilty := true, words := detail32 (guiltyWords s d) } else d) })
  x.poison.foldl (fun s f => setFence s f fencePoison) s

/-- QUEUE_RESET_DONE: once the started COPYs have ended, steps 4 to 9: launches stop, fences named are poisoned, HEAD
moves to TAIL, a guilty queue's record is posted and counted, and the queue is IDLE, or FAULTED after an invalid
doorbell (R329). -/
def execQueueResetDone (q : QueueId) (s : State) : Host.Outcome State Fault Refusal :=
  .next (
    let q := q.val
    let x := getQ s q
    if x.state ≠ 5 ∨ s.qf.descs.any (fun d => d.q == q && d.phase == .started && dtype d == 1) then s
    else
      let s := resetWork s q
      let s := if x.verdict = 0 then s
        else postErr s 31 2 0x0701 q 0 (toLE 8 x.verdict ++ toLE 8 x.target)
      let x := getQ s q
      let s := setQ s q { x with head := x.tail, target := x.tail, asked := x.tail, run := false, poison := []
                                 guilty := if x.verdict = 0 then x.guilty else (x.guilty + 1) % 65536
                                 state := if x.badTail then 4 else 1, reason := if x.badTail then 0x70 else x.reason
                                 badTail := false, verdict := 0 }
      idleTest s q)

end Machine
end Sys2Proof
end

