-- ==== Sys2Proof/Machine/Copy.lean ====
section
/-!
DEFINITION. The COPY of a tile DMA engine in its three modes (R326), unit by unit: a unit is a piece of at most 128
source bytes, a vector of a skewed block (R204), or an update-put.
-/

namespace Sys2Proof
namespace Machine

/-- One source piece of a unit: space, address, length, hint. -/
abbrev Piece3 := Nat × Nat × Nat

/-- Number of units of a COPY. -/
def copyUnits (d : Desc) : Nat :=
  match copyMode d with
  | 0 => (linesOf (df d 0x20 8) (df d 0x30 8)).length
  | 1 => match copyGeo d with | some g => ceilDiv (df d 0x46 2) g.kp * skewV d g | none => 0
  | _ => ceilDiv (df d 0x30 8) 4

/-- The elements of vector τ of skewed block p_k that lie in the matrix: row group j, row m, first reduction index,
elements (R204). -/
def skewElems (d : Desc) (g : MxGeo) (u : Nat) : List (Nat × Nat × Nat × Nat) :=
  let V := skewV d g
  let pk := u / V
  let tau := u % V
  (List.range (64 / g.h)).filterMap (fun j =>
    let k0 := g.kp * pk + j * g.e
    if g.h * j ≤ tau ∧ tau - g.h * j < df d 0x44 2 ∧ k0 < df d 0x46 2 then
      some (j, tau - g.h * j, k0, min g.e (df d 0x46 2 - k0)) else none)

/-- The pieces that hold the elements of one row of a skewed vector, cut at lines of 128 bytes, so that each is one request
(R268) under one translation (R311). -/
def skewPieces (d : Desc) (g : MxGeo) (x : Nat × Nat × Nat × Nat) : List Piece3 :=
  let b0 := x.2.2.1 * g.abits / 8
  (linesOf (df d 0x20 8 + x.2.1 * df d 0x48 4 + b0) (((x.2.2.1 + x.2.2.2) * g.abits - 1) / 8 + 1 - b0)).map
    (fun l => (srcSpace d, l.1, l.2))

/-- The source pieces of unit u (R326). -/
def unitSrc (d : Desc) (u : Nat) : List Piece3 :=
  match copyMode d with
  | 0 =>
    let a := df d 0x20 8
    let n := df d 0x30 8
    let lo := if u = 0 then a else (a / 128 + u) * 128
    [(srcSpace d, lo, min (a + n) ((a / 128 + u + 1) * 128) - lo)]
  | 1 =>
    match copyGeo d with
    | none => []
    | some g => (skewElems d g u).flatMap (skewPieces d g)
  | _ =>
    let n := min 4 (df d 0x30 8 - 4 * u)
    (linesOf (df d 0x20 8 + 128 * u) (32 * n)).map (fun l => (srcSpace d, l.1, l.2))
      ++ (linesOf (df d 0x58 8 + 4 * u) n).map (fun l => (0, l.1, l.2))

/-- Join consecutive parts, as many as each count says. -/
def joinParts : List Nat → List (List Byte × List Bool) → List (List Byte × List Bool)
  | [], _ => []
  | n :: r, ps => ((ps.take n).flatMap (·.1), (ps.take n).flatMap (·.2)) :: joinParts r (ps.drop n)

/-- The bytes of a skewed vector from the bytes of its pieces, pads zero, with their poison (R176, R204). -/
def skewVector (d : Desc) (g : MxGeo) (u : Nat) (parts : List (List Byte × List Bool)) : List Byte × List Bool :=
  let els := skewElems d g u
  let bv := mxBv g
  let put := fun (acc : Nat × List (Nat × Nat)) (x : (Nat × Nat × Nat × Nat) × (List Byte × List Bool)) =>
    let (e, p) := x
    let off := e.2.2.1 * g.abits % 8
    let v := (ofLE p.1 >>> off) % 2 ^ (g.abits * e.2.2.2)
    let at_ := e.1 * g.e * g.abits
    (acc.1 + v * 2 ^ at_, if p.2.any id then (at_, at_ + g.abits * e.2.2.2) :: acc.2 else acc.2)
  let r := (els.zip (joinParts (els.map (fun x => (skewPieces d g x).length)) parts)).foldl put (0, [])
  (toLE bv r.1, (List.range bv).map (fun i => r.2.any (fun s => decide (s.1 < 8 * i + 8) && decide (8 * i < s.2))))

/-- The destination of a unit: address, bytes, poison (modes 0 and 1). -/
def unitDst (d : Desc) (u : Nat) (parts : List (List Byte × List Bool)) : Nat × List Byte × List Bool :=
  match copyMode d with
  | 1 =>
    match copyGeo d with
    | none => (0, [], [])
    | some g =>
      let V := skewV d g
      let r := skewVector d g u parts
      (df d 0x28 8 + u / V * df d 0x4C 4 + u % V * mxBv g, r.1, r.2)
  | _ =>
    let lo := match unitSrc d u with | (_, a, _) :: _ => a | [] => 0
    (df d 0x28 8 + (lo - df d 0x20 8), parts.flatMap (·.1), parts.flatMap (·.2))

/-- An address leaves this module: a fabric address whose module ID is another's (R40). -/
def leaves (s : State) (space a : Nat) : Bool := space == 2 && a / 2 ^ 48 != ownId s

/-- The host address used on the link for a descriptor's address: translated where an entry covers it (R311, R313). -/
def hostAddr (d : Desc) (a : Nat) : Nat × Bool :=
  match d.trans.find? (fun e => decide (e.base ≤ a) && decide (a < e.base + e.size)) with
  | some e => (e.target + (a - e.base), true)
  | none => (a, false)

/-- The tile whose DMA engine performs a COPY. -/
def copyEngine (d : Desc) : Nat := df d 0x3C 2

/-- An issued matrix descriptor that a transfer must wait for (R202). -/
def dmaBlocked (s : State) (d : Desc) : Bool :=
  (copyWindows s d).any (fun w =>
    ((getT s w.1).mx.filter (fun m => m.issued.isSome)).any (fun m =>
      let sp : Span := (w.2.1, w.2.1 + w.2.2.1)
      (mxSpans m true).any (spanMeets sp) || (w.2.2.2 && (mxSpans m false).any (spanMeets sp))))

/-- A request of this module to another (R267). -/
def copyTxn (s : State) (type a n op hint poison : Nat) (operand : List Byte) (data : List (List Byte)) : Txn :=
  { type := type, dslots := data.length, hint := hint, tag := 0, src := ownId s, dst := a / 2 ^ 48 % 4096, addr := a % 2 ^ 48
    len := n - 1, ttl := 15, census := 0, op := op, status := 0, poison := poison, operand := operand, resv := false, data := data }

/-- No operand. -/
def noOperand : List Byte := List.replicate 8 0#8

/-- Count the sectors of n bytes at a that a tile reads from or writes to stack caches (R408). -/
def countSectors (s : State) (t a n : Nat) : State :=
  match placeOf s a with
  | .mem _ _ => modT s t (fun T => actAdd T 4 (sectorsOf a n).length)
  | _ => s

/-- The die of the tile whose DMA engine performs a COPY. -/
def engineDie (d : Desc) : Nat := copyEngine d / 64

/-- A request of a COPY is answered at once with a status. -/
def copyAnswer (s : State) (d : Desc) (k st : Nat) : State :=
  dmaAnswer s { q := d.q, idx := d.idx, k := k, st := st, bytes := [], pois := [], operand := noOperand }

/-- Send a request of a COPY to another module; none while no tag is free or a path changes. NO_ROUTE answers at once where
no port leads there, FENCED where a die on the way has no usable egress (R257 to R259, R277). -/
def copySend (s : State) (d : Desc) (k : Nat) (x : Txn) : Option State :=
  let t := copyEngine d
  match originPort s x.dst with
  | none => some (copyAnswer s d k 3)
  | some p =>
    match pathOf s (engineDie d) (16 + p / 2) with
    | .error y => some (copyAnswer (noEgress s (2 ^ 60 + x.dst * 2 ^ 48 + x.addr) (some (y, 16 + p / 2))) d k 2)
    | .ok _ =>
      if dmaWaits s t (32 + x.dst) then none
      else (sendRequest s t p x (.dma d.q d.idx k)).map (fun s => modT s t (fun T => actAdd T 5 x.dslots))

/-- Requests of a COPY to an address of this module wait for a change of path (R257). -/
def copyWaits (s : State) (d : Desc) (a : Nat) : Bool :=
  match placeDie (placeOf s a) with
  | some k => dmaWaits s (copyEngine d) k
  | none => false

/-- Note an outstanding request of a COPY, and count it at its engine's tile (R30). -/
def noteReq (s : State) (d : Desc) (r : CopyReq) : State × Nat :=
  match getDesc s d.q d.idx with
  | none => (s, 0)
  | some e =>
    let k := e.copy.serial
    let s := modDesc s d.q d.idx (fun e => { e with copy := { e.copy with serial := k + 1, reqs := e.copy.reqs ++ [(k, r)] } })
    (modT s (copyEngine d) (fun T => sentNow s.now [8] { T with dmaReqs := T.dmaReqs + 1 }), k)

/-- The COPY sends no further request and ends with a status once those outstanding have completed (R326). -/
def copyStop (s : State) (d : Desc) (st : Nat) : State :=
  modDesc s d.q d.idx (fun e => { e with copy := { e.copy with stop := some (e.copy.stop.getD st) } })

/-- Read one source piece of unit u: at once on this module, else by a request; none while it waits. -/
def readPart (s : State) (d : Desc) (u i : Nat) (p : Piece3) (errs : List SymErr) : Option State :=
  let (space, a, n) := p
  let hint := fld (df d 0x3A 1) 1 0
  let fill := fun (s : State) (bs : List Byte) (po : List Bool) => modDesc s d.q d.idx (fun e => { e with copy := { e.copy with
    units := e.copy.units.map (fun x => if x.u = u then { x with parts := x.parts.set i (some (bs, po)) } else x) } })
  if space = 1 then
    if !canRead s then none
    else
      let r := noteReq s d (.rd u i)
      let h := hostAddr d a
      some (hostRead r.1 (.copy d.q d.idx r.2) h.1 n (queuePasid (getQ s d.q)) h.2)
  else if leaves s space a then
    let r := noteReq s d (.rd u i)
    copySend r.1 d r.2 (copyTxn s 1 a n 0 hint 0 noOperand [])
  else
    if copyWaits s d (a % 2 ^ 48) then none
    else (cohReadFrom s (engineDie d) (a % 2 ^ 48) n hint true errs).map (fun r =>
      if r.st ≠ 0 then copyStop r.s d 0x41
      else fill (countSectors r.s (copyEngine d) (a % 2 ^ 48) n) r.bytes r.pois)

/-- Start the next unit of a COPY. -/
def startUnit (s : State) (d : Desc) (errs : List SymErr) : Option State :=
  let u := d.copy.next
  let ps := unitSrc d u
  if outstanding (getT s (copyEngine d)) + ps.length > 256 then none
  else
    let s := modDesc s d.q d.idx (fun e => { e with copy := { e.copy with
      next := u + 1, units := e.copy.units ++ [{ u := u, parts := ps.map (fun _ => none) }] } })
    ps.zipIdx.foldl (fun acc pi => acc.bind (fun s => readPart s d u pi.2 pi.1 errs)) (some s)

/-- A COPY whose source lies in host memory is held back by D3hot (R301). -/
def copyHeld (s : State) (d : Desc) : State := if srcSpace d = 1 then defer s (.copy d.q d.idx) else s

/-- Addresses of the poisoned source sectors of a unit (R336). -/
def poisonedSectors (d : Desc) (u : Nat) (parts : List (List Byte × List Bool)) : List Nat :=
  ((unitSrc d u).zip parts).flatMap (fun (p, b) =>
    ((List.range p.2.2).filter (fun i => b.2.getD i false)).map (fun i => (p.2.1 + i) / 32))

/-- A unit has been written: it leaves the list and is counted. -/
def unitDone (s : State) (d : Desc) (u n : Nat) (ps : List Nat) : State :=
  let s := modT s (copyEngine d) (fun T => actAdd T 3 n)
  modDesc s d.q d.idx (fun e => { e with copy := { e.copy with
    units := e.copy.units.filter (fun x => x.u != u), moved := e.copy.moved + n
    poisoned := ps.foldl sIns e.copy.poisoned } })

/-- The data slots of the sectors that n bytes at a touch, and their poison bits. -/
def slotsOf (a : Nat) (bs : List Byte) (po : List Bool) : List (List Byte) × Nat :=
  let lo := a / 32 * 32
  let m := (a + bs.length - 1) / 32 + 1 - a / 32
  ((List.range m).map (fun i => (List.range 32).map (fun b =>
      let x := lo + 32 * i + b
      if x < a then 0#8 else bs.getD (x - a) 0#8)),
   maskOf m (fun i => (List.range 32).any (fun b => let x := lo + 32 * i + b; decide (a ≤ x) && po.getD (x - a) false)))

/-- The update-put of unit u (R281, R326). -/
def putTxn (s : State) (d : Desc) (u : Nat) (parts : List (List Byte × List Bool)) : Txn :=
  let n := min 4 (df d 0x30 8 - 4 * u)
  let all := parts.flatMap (·.1)
  let po := parts.flatMap (·.2)
  let a0 := df d 0x28 8 + 4 * u * 32 * putSize d
  let a := if dstSpace d = 2 then a0 else ownId s * 2 ^ 48 + a0
  copyTxn s 5 a 32 (df d 0x50 1) 0 (maskOf n (fun q => (List.range 32).any (fun b => po.getD (32 * q + b) false)))
    (((all.drop (32 * n)).take n ++ List.replicate (4 - n) 0#8) ++ toLE 4 (df d 0x54 4))
    ((List.range n).map (fun q => (all.drop (32 * q)).take 32))

/-- Send the put of a unit: to the home engine of this module after the checks of R269, or to another module. -/
def sendPut (s : State) (d : Desc) (u : Nat) (x : Txn) : Option State :=
  let r := noteReq s d (.put u)
  let ans := copyAnswer r.1 d r.2
  if x.dst ≠ ownId s then copySend r.1 d r.2 x
  else if unsupported s x then some (ans 5)
  else
    let st := cohStatus s x.addr 32
    if st ≠ 0 then some (ans st)
    else
      match homeOf s x.addr with
      | none => some (ans 1)
      | some (h, _) =>
        let l := homeEngine h
        let E := getE r.1 l
        match pathOf s (engineDie d) (16 + l) with
        | .error y => some (copyAnswer (noEgress r.1 x.addr (some (y, 16 + l))) d r.2 2)
        | .ok _ =>
        if dmaWaits s (copyEngine d) (16 + l) then none
        else if E.waiting.length + E.done.length ≥ 64 then none
        else some (setE r.1 l { E with waiting := E.waiting ++ [putOf (.dma d.q d.idx r.2) x] })

/-- Write the unit whose pieces have all arrived, none while it waits (R326). -/
def writeUnit (s : State) (d : Desc) (x : CopyUnit) (errs : List SymErr) : Option State :=
  let parts := x.parts.map (fun p => p.getD ([], []))
  let ps := poisonedSectors d x.u parts
  if copyMode d = 2 then
    if (d.copy.reqs.filter (fun r => match r.2 with | .put _ => true | _ => false)).length ≥ 16
        ∨ outstanding (getT s (copyEngine d)) ≥ 256 then none
    else (sendPut s d x.u (putTxn s d x.u parts)).map (fun s =>
      unitDone s d x.u (33 * min 4 (df d 0x30 8 - 4 * x.u)) ps)
  else
    let (a, bs, po) := unitDst d x.u parts
    let hint := fld (df d 0x3A 1) 3 2
    let sp := dstSpace d
    if sp = 1 then
      if !canSend s then some (defer s (.copy d.q d.idx))
      else
        let s := (linesOf a bs.length).foldl (fun s l =>
          hostWrite s (hostAddr d l.1).1 ((bs.drop (l.1 - a)).take l.2) (queuePasid (getQ s d.q))
            (((po.drop (l.1 - a)).take l.2).any id) (hostAddr d l.1).2) s
        some (unitDone s d x.u bs.length ps)
    else if leaves s sp a then
      let ls := linesOf a bs.length
      if outstanding (getT s (copyEngine d)) + ls.length > 256 then none
      else
        (ls.foldl (fun (acc : Option State) l => acc.bind (fun s =>
          let r := noteReq s d (.wr x.u)
          let dp := slotsOf l.1 ((bs.drop (l.1 - a)).take l.2) ((po.drop (l.1 - a)).take l.2)
          copySend r.1 d r.2 (copyTxn s 2 l.1 l.2 0 hint dp.2 noOperand dp.1))) (some s)).map
          (fun s => unitDone s d x.u bs.length ps)
    else
      if copyWaits s d (a % 2 ^ 48) then none
      else (cohWriteFrom s (engineDie d) (a % 2 ^ 48) (bs.map some) po hint errs).map (fun r =>
        if r.1 ≠ 0 then copyStop r.2 d 0x41
        else unitDone (countSectors r.2 (copyEngine d) (a % 2 ^ 48) bs.length) d x.u bs.length ps)

/-- The receipt words of a COPY (R336 Table 6). -/
def copyWords (d : Desc) : List Byte :=
  if copyMode d = 2 then d.copy.results.flatMap (toLE 2) ++ toLE 4 d.copy.fallbacks
  else toLE 8 d.copy.moved ++ toLE 4 d.copy.poisoned.length

/-- A COPY has ended: its status, its windows free again, invalidations that waited for it (R313, R314, R326). -/
def copyEnd (s : State) (d : Desc) (st : Nat) : State :=
  let s := dropDma (endDesc s d.q d.idx st (copyWords d)) d
  let s := if st = 0x30 ∨ st = 0x31 then faultQueue s d.q st else s
  invalDrain s 33

/-- Take up one answer to a request of a COPY. -/
def takeAnswer (s : State) (d : Desc) (a : DmaAns) : State :=
  let s := { s with link := { s.link with dmaDone := s.link.dmaDone.erase a } }
  match d.copy.reqs.find? (fun r => r.1 == a.k) with
  | none => s
  | some (_, r) =>
    let s := modDesc s d.q d.idx (fun e => { e with copy := { e.copy with reqs := e.copy.reqs.filter (fun x => x.1 != a.k) } })
    let s := modT s (copyEngine d) (fun T => { T with dmaReqs := T.dmaReqs - 1 })
    if a.st = 0x30 then copyStop s d 0x30
    else
      match r with
      | .rd u i =>
        if a.st = 2 then copyStop s d 0x41
        else if a.st ≠ 0 then copyStop s d 0x46
        else modDesc s d.q d.idx (fun e => { e with copy := { e.copy with units := e.copy.units.map (fun x =>
          if x.u = u then { x with parts := x.parts.set i (some (a.bytes, a.pois)) } else x) } })
      | .wr _ => if a.st = 2 then copyStop s d 0x41 else if a.st ≠ 0 then copyStop s d 0x46 else s
      | .put _ =>
        if a.st = 2 then copyStop s d 0x41
        else if a.st ≠ 0 then copyStop s d (if leaves s (dstSpace d) (df d 0x28 8) then 0x46 else 0x43)
        else
          let re := leAt a.operand 0 1
          modDesc s d.q d.idx (fun e => { e with copy := { e.copy with
            results := lmod e.copy.results re (fun n => (n + 1) % 65536)
            fallbacks := (e.copy.fallbacks + leAt a.operand 1 1) % 2 ^ 32 } })

/-- COPY: the next thing a started COPY does: it takes up an answer, ends, writes the unit whose bytes have all arrived,
or starts the next unit (R326). It waits for matrix descriptors whose ranges it meets (R202). -/
def execCopy (q : QueueId) (idx : BitVec 32) (errs : List SymErr) (s : State) : Host.Outcome State Fault Refusal :=
  .next (
    match getDesc s q.val idx.toNat with
    | none => s
    | some d =>
      if d.phase ≠ .started ∨ dtype d ≠ 1 then s
      else
        match s.link.dmaDone.find? (fun a => a.q == d.q && a.idx == d.idx) with
        | some a => takeAnswer s d a
        | none =>
          match d.copy.stop with
          | some st => if d.copy.reqs.isEmpty then copyEnd s d st else s
          | none =>
            if s.hx.stopped ∨ dmaBlocked s d then s
            else
              match d.copy.units with
              | x :: _ =>
                if x.parts.all Option.isSome then (writeUnit s d x errs).getD s
                else if d.copy.next < copyUnits d ∧ d.copy.units.length < 64 then (startUnit s d errs).getD (copyHeld s d)
                else s
              | [] =>
                if d.copy.next < copyUnits d then (startUnit s d errs).getD (copyHeld s d)
                else if !d.copy.reqs.isEmpty then s
                else
                  let refused := (d.copy.results.drop 2).any (· != 0)
                  copyEnd s d (if refused then 0x43 else if d.copy.poisoned.isEmpty then 0 else 0x40))

/-! Host reads (R313) -/

/-- Once no read of its constants is outstanding, a LAUNCH that has not started ends with HOST_ERROR where one failed, with
INVALIDATED where an invalidation has stopped it; its queue enters FAULTED (R313, R314). One that has ended meanwhile is not
touched. -/
def constsEnd (s : State) (q idx : Nat) : State :=
  match getDesc s q idx with
  | none => s
  | some d =>
    match d.copy.stop with
    | some st => if dtype d = 2 ∧ d.phase = .ready ∧ !constsOut s q idx then faultQueue (endDesc s q idx st []) q st else s
    | none => s

/-- A read of host memory has ended; `ok` false for Unsupported Request, Completer Abort, poisoned data or a time-out. -/
def hostReadEnd (s : State) (id : Nat) (ok : Bool) (data : List Byte) : State :=
  match s.hx.hreads.find? (fun r => r.1 == id) with
  | none => s
  | some (_, own) =>
    match own with
    | .ring q i =>
        let s := traffic s
        if ok then { s with hx := { s.hx with hreads := s.hx.hreads.filter (fun r => r.1 != id) } } else
        let x := getQ s q
        if mayFetch s q ∧ x.head ≠ x.target then ringFault s q 0x30 (if diff32 i x.head < 2 ^ 31 then i else x.head)
        else dropRingReads s q
    | _ =>
      let s := traffic { s with hx := { s.hx with hreads := s.hx.hreads.filter (fun r => r.1 != id) } }
      match own with
      | .copy q idx k => dmaAnswer s { q := q, idx := idx, k := k, st := if ok then 0 else 0x30, bytes := data
                                       pois := data.map (fun _ => false), operand := noOperand }
      | .consts q idx k =>
        let s := if ok then modDesc s q idx (fun d => { d with consts := d.consts.set k (some data) })
          else modDesc s q idx (fun d => { d with copy := { d.copy with stop := some (d.copy.stop.getD 0x30) } })
        invalDrain (constsEnd s q idx) 33
      | _ => s

/-- HOST_READ_COMPLETION of read `id` (R313). The entries of a ring are taken up by RING_FETCH_DONE. -/
def execHostReadCompletion (id : Nat) (ok : Bool) (data : List Byte) (s : State) : Host.Outcome State Fault Refusal :=
  .next (hostReadEnd s id ok data)

/-- HOST_COMPLETION_TIMEOUT: no completion came for a read of host memory (a ring fetch among them) or for a Translation
Request (R312, R313, R480). -/
def execHostCompletionTimeout (trans : Bool) (id : Nat) (s : State) : Host.Outcome State Fault Refusal :=
  .next (
    if trans then
      match s.hx.treqs.find? (fun r => r.id == id) with
      | none => s
      | some r =>
        let s := { s with hx := { s.hx with treqs := s.hx.treqs.filter (fun x => x.id != id) } }
        match getDesc s r.q r.idx with
        | some d => translateAll (if r.stale then s else rejectTrans s r.q r.idx 2 (((nextPage d).map (·.2)).getD 0) r.addr)
        | none => translateAll s
    else hostReadEnd s id false [])

end Machine
end Sys2Proof
end

