-- ==== Sys2Proof/Machine/Launch.lean ====
section
/-!
DEFINITION. Launches (R327, R328), `qwait` (R332), service queues (R331), MESSAGE transactions (R332), the fence-cycle
sweep (R334).
-/

namespace Sys2Proof
namespace Machine

/-! Launches -/

/-- How a launch ended on a tile is noted with its descriptor or its persistent record; the tile holds no launch then
(R328). -/
def collectEnd (s : State) (t : Nat) : State :=
  let T := getT s t
  match T.launch, T.launchEnd with
  | some (q, idx), some st =>
    let e := (t, st, T.endCause, T.endEpc)
    let s := modDesc s q idx (fun d => { d with ends := d.ends ++ [e] })
    let s := modF s (fun f => { f with persist := f.persist.map (fun p => if p.q = q ∧ p.idx = idx then { p with ends := p.ends ++ [e] } else p) })
    modT s t (fun T => { T with launch := none, launchEnd := none, occ := 0, det := false })
  | _, _ => s

/-- A launch has not ended on a tile. -/
def resident (T : Tile) : Bool := T.launch.isSome && T.launchEnd.isNone

/-- R of R149 for a LAUNCH. -/
def residentLimit (s : State) (d : Desc) : Nat :=
  let S := df d 0x2C 2 * 4096
  min 8 (min (256 / max 1 (df d 0x28 1)) (if S > 0 then launchL s d / S else 8))

/-- A context as a launch starts it (R150, R327 steps 3 to 5). -/
def launchCtx (s : State) (d : Desc) (c : Nat) : Ctx :=
  let S := df d 0x2C 2 * 4096
  let rw := 3 * 2 ^ 60
  let stride := df d 0xC0 8
  let sega := fun n =>
    let a := df d (0x38 + 16 * n) 8
    if n = 3 then toW ((if S > 0 then c * S else 0) + rw)
    else if n = 2 then toW (a / 2 ^ 48 * 2 ^ 48 + (a + c * stride) % 2 ^ 48) else toW a
  let segl := fun n => if n = 3 then toW (if S > 0 then S else launchL s d) else toW (df d (0x40 + 16 * n) 8)
  { Ctx.reset with
    sega := Vector.ofFn (fun i => sega i.val)
    segl := Vector.ofFn (fun i => segl i.val)
    stklow := toW ((df d 0xB8 8 + c * stride) % 2 ^ 48)
    seghint := toW (df d 0x34 2)
    vbase := toW (df d 0xC8 8)
    tgctl := toW (df d 0x30 4 % 2 ^ 24 * 2 ^ 16)
    sup := (df d 0x2B 1).testBit 0
    pc := df d 0x20 8
    run := .running }

/-- The constants of a LAUNCH: read by reference, or inline from its ring entries (R324, R325). -/
def launchConsts (d : Desc) : List Byte :=
  let n := df d 0x2E 2
  if (df d 0x2B 1).testBit 3 then (d.consts.flatMap (·.getD [])).take n else slice d.bytes 256 n

/-- Prepare one selected tile and start its contexts (R217, R327). -/
def startTile (s : State) (d : Desc) (t : Nat) : State :=
  let s := collectEnd s t
  let T := getT s t
  let L := launchL s d
  let K := df d 0x2A 1
  let S := df d 0x2C 2 * 4096
  let kept := min T.lsBytes L / 0x40000
  let blocks := (List.range 8).filter (fun b => b ≥ kept)
  let cs := launchConsts d
  let T := { T with
    store := stScramble T.store s.draws blocks
    vr := stScramble T.vr s.draws (List.range K)
    tc := [], lsBytes := L
    launch := some (d.q, d.idx), launchEnd := none, endCause := 0, endEpc := 0, launchEvent := s.qf.events
    occ := toW (L / 0x40000 * 2 ^ 32 + df d 0x2C 2 * 2 ^ 16 + residentLimit s d * 16 + K)
    vregs := df d 0x28 1
    det := (df d 0x2B 1).testBit 1, unfenced := []
    ctx := Vector.ofFn (fun i => if i.val < K then launchCtx s d i.val else Ctx.reset) }
  let T := if cs.isEmpty then T
    else if S = 0 then lsWriteT T 0 cs
    else (List.range K).foldl (fun T c => lsWriteT T (c * S) cs) T
  let s := setT { s with draws := s.draws + 1 } t T
  let s := reclock s t .t0 (tileLevel s t) (levelDuty (tileLevel s t))
  modT s t (fun T => { T with idleMark := s.now })

/-- The pages that the constants of a LAUNCH lie in: address and length of its bytes there (R311, R325). -/
def constPieces (d : Desc) : List (Nat × Nat) :=
  let a := df d 0xD8 8
  let n := df d 0x2E 2
  let cut := min n (4096 - a % 4096)
  (a, cut) :: (if cut < n then [(a + cut, n - cut)] else [])

/-- Ask host memory for the constants of a LAUNCH, a read for each page (R325, R327). -/
def askConsts (s : State) (d : Desc) : State :=
  let ps := constPieces d
  if !canSend s ∨ s.hx.hreads.length + ps.length > 16384 then defer s (.launch d.q)
  else
    ps.zipIdx.foldl (fun s p =>
      let h := hostAddr d p.1.1
      hostRead s (.consts d.q d.idx p.2) h.1 p.1.2 (queuePasid (getQ s d.q)) h.2)
      (modDesc s d.q d.idx (fun d => { d with consts := ps.map (fun _ => none) }))

/-- LAUNCH_START: the LAUNCH that is its queue's oldest unstarted descriptor starts on the tiles it selects, once none of
them holds a resident launch and its referenced constants have been read (R327); none starts in a SCAN session (R397). -/
def execLaunchStart (q : QueueId) (s : State) : Host.Outcome State Fault Refusal :=
  .next (
    match mayStart s q.val with
    | none => s
    | some d =>
      if dtype d ≠ 2 ∨ scanOpen s then s
      else
        let ts := selected s d
        if ts.any (fun t => resident (getT s t)) then s
        else if ts.isEmpty then endDesc s d.q d.idx 6 (launchWords 0 [])
        else if d.copy.stop.isSome then s
        else if !constsRead d then (if d.consts.isEmpty then askConsts s d else s)
        else
          let s := wdTouch (modDesc s d.q d.idx (fun d => { d with phase := .started, tiles := ts })) d.q
          let s := ts.foldl (fun s t => startTile s d t) s
          let s := if (df d 0x2B 1).testBit 2 then endDesc s d.q d.idx 0 (launchWords ts.length []) else s
          stampQueue s d.q)

/-- LAUNCH_END: a LAUNCH that has ended on every tile ends, with LAUNCH_FAULT where a tile was reset; a PERSIST LAUNCH
posts its ENDED receipt (R328). -/
def execLaunchEnd (q : QueueId) (idx : BitVec 32) (s : State) : Host.Outcome State Fault Refusal :=
  .next (
    let mine := (s.tiles.filter (fun p => p.2.launch == some (q.val, idx.toNat) && p.2.launchEnd.isSome)).map (·.1)
    let s := mine.foldl collectEnd s
    let st := fun (ends : List (Nat × Nat × Nat × Nat)) => if ends.any (fun e => e.2.1 != 0) then 0x44 else 0
    match getDesc s q.val idx.toNat with
    | some d =>
      if dtype d = 2 ∧ d.phase = .started ∧ d.tiles.all (fun t => d.ends.any (fun e => e.1 == t)) then
        endDesc s d.q d.idx (st d.ends) (launchWords d.tiles.length d.ends)
      else s
    | none =>
      match s.qf.persist.find? (fun p => p.q == q.val && p.idx == idx.toNat) with
      | some p =>
        if p.tiles.all (fun t => p.ends.any (fun e => e.1 == t)) then
          modF s (fun f => { f with
            persist := f.persist.filter (fun x => !(x.q == p.q && x.idx == p.idx))
            receipts := f.receipts ++ [{ q := p.q, kind := 1, type := 2, status := if p.guilty then 0x50 else st p.ends, detail := 0
                                         tag := p.tag, index := p.idx, words := detail32 (launchWords p.tiles.length p.ends)
                                         raw := none, slots := 0, last := false }] })
        else s
      | none => s)

/-! `qwait` (R98, R332) -/

/-- The test of `qwait` on queue q by a context: it returns 0 at once (R332). -/
def qwaitReady (s : State) (T : Tile) (C : Ctx) (q : Nat) : Bool :=
  let x := getQ s q
  x.prod != x.cons || (wfld x.dlv 47 8 == 0 && decide (x.bell > (mfind C.qseen q).getD T.launchEvent))

/-- QWAIT: 2 under TL_CHART_LEAVE, 0 where the test succeeds, else the context sleeps, with its time limit (R98, R102,
R332). -/
def execQwait (t : TileId) (c : CtxId) (rd rs1 rs2 : Reg) (s : State) : Host.Outcome State Fault Refusal :=
  .next (issue s t c [rd, rs1, rs2] (fun s C =>
    orFault [uniformFault C (.qwait t c rd rs1 rs2)]
      (let T := getT s t
       let q := (xget C rs1).toNat
       let lim := (xget C rs2).toNat
       if T.chartLeave then .ok (setC s t c (xset C rd 2)) none
       else if q < 4096 ∧ qwaitReady s T C q then
         .ok (setC s t c (xset { C with qseen := mset C.qseen q s.qf.events } rd 0)) none
       else .wait (setC s t c { C with run := .inQwait rd.val q (if lim = 0 then none else some (s.now + lim)) }))))

/-- QWAIT_TIMEOUT: the time limit of a sleeping `qwait` expires; it returns 1 (R102, R332). -/
def execQwaitTimeout (t : TileId) (c : CtxId) (s : State) : Host.Outcome State Fault Refusal :=
  .next (
    match (getC s t c).run with
    | .inQwait _ _ (some l) => if s.now ≥ l then qwake s t c 1 else s
    | _ => s)

/-! Service queues (R331) -/

/-- A delivery of a queue that has not been taken (R331). -/
def untaken (s : State) (q i : Nat) : Bool :=
  let x := getQ s q
  decide (diff32 i x.cons < diff32 x.prod x.cons)

/-- The order of the deliveries with a new one, and without those taken (R344). -/
def noteDelivery (s : State) (l : List (Nat × Nat)) (q i : Nat) : List (Nat × Nat) :=
  l.filter (fun e => e != (q, i) && untaken s e.1 e.2) ++ [(q, i)]

/-- SERVICE_DELIVERY: the oldest started SERVICE descriptor of a queue that has not been delivered is written to the
delivery ring when it has room; a delivery that cannot be made ends the descriptor (R331). -/
def execServiceDelivery (q : QueueId) (errs : List SymErr) (s : State) : Host.Outcome State Fault Refusal :=
  .next (
    let q := q.val
    let x := getQ s q
    let n := 2 ^ (wfld x.dlv 3 0 + 4)
    match s.qf.descs.find? (fun d => d.q == q && dtype d == 5 && d.phase == .started && d.delivered.isNone) with
    | none => s
    | some d =>
      if wfld x.dlv 47 8 = 0 ∨ diff32 x.prod x.cons ≥ n then s
      else
        match cohWriteBFrom s 31 (wfld x.dlv 47 8 * 256 + 256 * (x.prod % n)) (slice d.bytes 0 256) 0 errs with
        | none => s
        | some (st, s) =>
          if st = 1 then faultQueue (endDesc s q d.idx 0x03 []) q 0x03
          else if st = 2 then endDesc s q d.idx 0x41 []
          else
            let s := modDesc s q d.idx (fun d => { d with delivered := some x.prod })
            let s := modF s (fun f => { f with deliveries := noteDelivery s f.deliveries q x.prod })
            queueEvent (setQ s q { getQ s q with prod := (x.prod + 1) % 2 ^ 32 }) q false)

/-- SVC_DONE: a task's write of QF_SVC_DONE completes the SERVICE descriptor of a delivery index with a status (R331). -/
def execSvcDone (t : TileId) (q : QueueId) (status : BitVec 16) (index : BitVec 32) (s : State) :
    Host.Outcome State Fault Refusal :=
  .next (
    if !tilePage s q.val t.val then s
    else
      match s.qf.descs.find? (fun d => d.q == q.val && d.phase == .started && d.delivered == some index.toNat) with
      | some d => endDesc s d.q d.idx status.toNat []
      | none => s)

/-- QF_POST: a task's write copies COUNT + 1 entries of 64 bytes into the queue's receipt ring; refused where an entry
cannot be read (R331). -/
def execQfPost (t : TileId) (q : QueueId) (count : BitVec 6) (addr : BitVec 42) (errs : List SymErr) (s : State) :
    Host.Outcome State Fault Refusal :=
  .next (
    if !tilePage s q.val t.val then s
    else
      let n := count.toNat + 1
      let add := fun (s : State) (l : List Rcpt) => modF s (fun f => { f with receipts := f.receipts ++ l })
      let mk := fun (raw : List Byte) (last : Bool) =>
        ({ q := q.val, kind := 2, type := 0, status := 0, detail := 0, tag := 0, index := 0, words := [], raw := some raw
           slots := 0, last := last } : Rcpt)
      match cohReadFrom s 31 (addr.toNat * 64) (64 * n) 1 false errs with
      | none => s
      | some r =>
        if r.st ≠ 0 ∨ r.pois.any id then
          let x := getQ r.s q.val
          add (setQ r.s q.val { x with failed := (x.failed + 1) % 65536 }) [mk [] true]
        else add r.s ((List.range n).map (fun i => mk (slice r.bytes (64 * i) 64) (i + 1 == n))))

/-- MESSAGE_RECEIVE: the oldest MESSAGE becomes a SERVICE descriptor at TAIL of a bound queue that takes messages, or is
answered with ADDR_ERROR (R332). -/
def execMessageReceive (errs : List SymErr) (s : State) : Host.Outcome State Fault Refusal :=
  .next (
    match s.link.messages with
    | [] => s
    | (p, m) :: r =>
      let q := m.addr % 4096
      let x := getQ s q
      let ok := match fetchEnt s q with
        | some e => e.flags.testBit 2 && x.qcfg.toNat.testBit 18 && ringLocal x && decide (diff32 x.tail x.head < ringEntries x)
        | none => false
      let s0 := { s with link := { s.link with messages := r } }
      if !ok then refuse s0 p m 1
      else
        let d := [5#8, 1#8] ++ List.replicate 14 0#8 ++ toLE 8 m.src ++ List.replicate 8 0#8
          ++ ((m.data.flatten.take (m.len + 1)) ++ List.replicate 224 0#8).take 224
        match cohWriteBFrom s0 31 (entryAddr x x.tail) d 0 errs with
        | none => s
        | some (st, s1) => if st ≠ 0 then refuse s0 p m 1 else refuse (doorbell s1 q (x.tail + 1)) p m 0)

/-! The fence-cycle sweep (R334) -/

/-- The WAITs by which a queue waits: started and not completed, or its oldest unstarted descriptor, whose fence has not
reached the value. -/
def openWaits (s : State) (q : Nat) : List Desc :=
  let started := s.qf.descs.filter (fun d => d.q == q && dtype d == 3 && d.phase == .started)
  let oldest := match oldestReady s q with | some d => if dtype d = 3 ∧ d.phase = .ready then [d] else [] | none => []
  (started ++ oldest).filter (fun d => (waitMet s d).isNone)

/-- Queue a waits on queue b. -/
def waitsOn (s : State) (a b : Nat) : Bool :=
  (openWaits s a).any (fun w => s.qf.descs.any (fun d => d.q == b && d.phase != .done &&
    (signals d).any (fun fv => fv.1 == df w 0x20 2 && decide (fv.2 ≥ df w 0x28 8))))

/-- The wait stamp of a queue. -/
def waitStamp (s : State) (q : Nat) : Nat := ((openWaits s q).head?.bind (·.stamp)).getD 0

/-- The queues reachable from a set along the wait graph within some queues, n steps. -/
def reachN (edge : Nat → Nat → Bool) (nodes : List Nat) : Nat → List Nat → List Nat
  | 0, seen => seen
  | n + 1, seen => reachN edge nodes n (nodes.filter (fun b => seen.contains b || seen.any (fun a => edge a b)))

/-- The guilty queues of a sweep: those that are the latest stamped, ties to the higher number, of some cycle (R334). -/
def guiltyQueues (s : State) : List Nat :=
  let nodes := (s.qf.descs.map (·.q)).eraseDups.filter (fun q => !(openWaits s q).isEmpty)
  let before := fun (a b : Nat) => decide (waitStamp s a < waitStamp s b) || (waitStamp s a == waitStamp s b && decide (a ≤ b))
  nodes.filter (fun q =>
    let sub := nodes.filter (fun a => before a q)
    let first := sub.filter (fun b => waitsOn s q b)
    (reachN (waitsOn s) sub sub.length first).contains q)

/-- FENCE_CYCLE_SWEEP: every SWEEP_TICKS the queues found guilty are reset, each once (R334, R338). -/
def execFenceCycleSweep (s : State) : Host.Outcome State Fault Refusal :=
  .next (
    match s.chart with
    | none => s
    | some c =>
      if s.now < s.qf.sweepMark + c.sweepTicks then s
      else
        let g := guiltyQueues s
        g.foldl (fun s q => resetBegin s q 2) (modF s (fun f => { f with sweepMark := s.now })))

end Machine
end Sys2Proof
end

