-- ==== Sys2Proof/Machine/LinkTrain.lean ====
section
/-!
DEFINITION. Training, width and retraining of Bluner ports (R272 to R274, R277) and their registers (R279).
-/

namespace Sys2Proof
namespace Machine

/-- The Chart's entry of port p; NEIGHBOUR 0xFFFF where there is none. -/
def portEnt (s : State) (p : Nat) : PortEnt :=
  match s.chart with
  | some c => c.ports.getD p { neighbour := 0xFFFF, nport := 0, minWidth := 0, flags := 0 }
  | none => { neighbour := 0xFFFF, nport := 0, minWidth := 0, flags := 0 }

/-- The first lane set of R274 that lies within G. -/
def laneSet (g : Nat) : Option Nat :=
  ([0xFF, 0x0F, 0xF0, 0x03, 0x0C, 0x30, 0xC0] : List Nat).find? (fun m => g &&& m == m)

/-- What step 5 finds in the partner's capability block (R272 to R274): the lane set and G, or the reason of DOWN. The
checks run in the order of R273 and R274. -/
def checkPartner (s : State) (p : Nat) (good : Nat) (blk : List Byte) : Except Nat (Nat × Nat) :=
  let e := portEnt s p
  let gmin := leAt blk 0 1
  let gmax := leAt blk 1 1
  let gen := min 1 gmax
  let g := good &&& leAt blk 5 1
  if gen < 1 ∨ gen < gmin then .error 3
  else if leAt blk 2 2 ≠ e.neighbour ∨ leAt blk 4 1 ≠ e.nport then .error 2
  else
    match laneSet g with
    | none => .error 4
    | some m => if popc 8 m < e.minWidth then .error 4 else .ok (m, g)

/-- A port that leaves its links in electrical idle: what it counts and what its last training found stay, as only a reset
clears them (R279). -/
def Port.idle (P : Port) : Port :=
  { Port.reset with
    reason := P.reason, lanesGood := P.lanesGood, partner := P.partner, corr := P.corr
    replays := P.replays, retrains := P.retrains, discards := P.discards, late := P.late, timeouts := P.timeouts }

/-- The port leaves electrical idle and sends the detect pattern: step 1 begins (R272). -/
def sendDetect (s : State) (p : Nat) (P : Port) : State :=
  { setPort s p { P with state := .detect, step := 1, mark := s.now } with out := s.out ++ [.detect p] }

/-- A port that starts a full training afresh at step 1 (R272). -/
def toDetect (s : State) (p : Nat) : State := let P := getP s p; sendDetect s p { P.idle with tags := P.tags }

/-- The capability block that port p sends: generation 1 alone, the module's ID, the port's number and its good lanes (R272
Table 7). -/
def capabilityBlock (s : State) (p good : Nat) : List Byte :=
  toLE 1 1 ++ toLE 1 1 ++ toLE 2 (ownId s % 4096) ++ toLE 1 p ++ toLE 1 good ++ List.replicate 10 0#8

/-- The port sends its capability block (R272 step 4). -/
def sendBlock (s : State) (p good : Nat) : State := { s with out := s.out ++ [.capability p (capabilityBlock s p good)] }

/-- Time limit of a training step in AON ticks (R272 Table 6). -/
def stepLimit (n : Nat) : Nat := ([0, 12500, 100000, 12500, 6250, 0, 1250] : List Nat).getD n 0

/-- PORT_TRAIN_STEP: the training step of port p in progress ends. `ok` tells that it succeeded, `good` the lanes found
good by step 3, `blk` the capability block received by step 4. An attempt that fails after step 1 begins again at
step 1 (R272 to R274). -/
def execPortTrainStep (p : PortId) (good : BitVec 8) (blk : List Byte) (ok : Bool) (s : State) :
    Host.Outcome State Fault Refusal :=
  .next (
    let P := getP s p.val
    if P.state ≠ .detect ∧ P.state ≠ .training then s
    else if P.step = 1 then
      if ok ∧ s.now ≤ P.mark + stepLimit 1 then setP s p.val { P with state := .training, step := 2, mark := s.now } else s
    else if !ok ∨ s.now > P.mark + stepLimit P.step then toDetect s p.val
    else
      match P.step with
      | 2 => setP s p.val { P with step := 3, mark := s.now }
      | 3 => sendBlock (setP s p.val { P with step := 4, mark := s.now, good := good.toNat }) p.val good.toNat
      | 4 =>
        let P := { P with partner := leAt blk 2 2 % 4096, lanesGood := P.good &&& leAt blk 5 1 }
        match checkPartner s p.val P.good blk with
        | .error r => portDown (setP s p.val P) p.val r
        | .ok (m, g) => setP s p.val { P with step := 6, mark := s.now, lanes := m, lanesGood := g }
      | _ =>
        setPort s p.val { P with state := .active, reason := 0, width := popc 8 P.lanes, gen := 1, step := 0
                                 reqCred := 4096, rspCred := 4096 })

/-- DETECT_RETRY: detect is repeated every 10 ms, 125,000 ticks (R272). -/
def execDetectRetry (p : PortId) (s : State) : Host.Outcome State Fault Refusal :=
  .next (
    let P := getP s p.val
    if P.state = .detect ∧ s.now ≥ P.mark + 125000 then sendDetect s p.val P else s)

/-- DOWN_RETRAIN_TIMER: a port in DOWN trains again every 12,500,000 ticks, but not on a fenced link die (R274, R431). -/
def execDownRetrainTimer (p : PortId) (s : State) : Host.Outcome State Fault Refusal :=
  .next (
    let P := getP s p.val
    if P.state = .down ∧ s.now ≥ P.mark + 12500000 ∧ !s.link.linkFenced.contains (p.val / 2) then toDetect s p.val else s)

/-- Corrected bytes of a lane within the last 1,250 ticks (R274). -/
def laneErrors (P : Port) (now lane : Nat) : Nat :=
  (P.corrLog.filter (fun x => x.2.1 == lane && decide (now < x.1 + 1250))).foldl (fun n x => n + x.2.2) 0

/-- LANE_FAIL: a lane in use loses lock (`lost`), or more than 1,024 of its bytes were corrected within 1,250 ticks;
the port enters RETRAIN (R274). -/
def execLaneFail (p : PortId) (lane : Fin 8) (lost : Bool) (s : State) : Host.Outcome State Fault Refusal :=
  .next (
    let P := getP s p.val
    if P.state = .active ∧ P.lanes.testBit lane.val ∧ (lost ∨ laneErrors P s.now lane.val > 1024) then enterRetrain s p.val
    else s)

/-- RETRAIN_DONE: steps 3 to 6 on the current lane set end: the lanes found good, the partner's capability block if one
was received, and whether every lane found the partner in electrical idle throughout the last 1 ms. Credits are granted anew
and the held flits are sent again; a failure of any step leads to DOWN (R266, R272, R274; assumption 57). -/
def execRetrainDone (p : PortId) (good : BitVec 8) (blk : Option (List Byte)) (idle : Bool) (s : State) :
    Host.Outcome State Fault Refusal :=
  .next (
    let P := getP s p.val
    if P.state ≠ .retrain then s
    else
      let s := sendBlock s p.val good.toNat
      let fail := fun (P : Port) => portDown (setP s p.val P) p.val (if idle then 1 else 5)
      match (if s.now ≤ P.mark + 25000 then blk else none) with
      | none => fail P
      | some b =>
        let P := { P with partner := leAt b 2 2 % 4096, lanesGood := good.toNat &&& leAt b 5 1 }
        match checkPartner s p.val (good.toNat &&& P.lanes) b with
        | .error _ => fail P
        | .ok (m, _) =>
          let w := popc 8 m
          let s := setPort s p.val { P with state := .active, reason := 0, width := w, lanes := m, periods := 0, corrLog := []
                                            reqCred := 4096, rspCred := 4096, freeReq := 0, freeRsp := 0
                                            resend := P.held.head?.map (·.seq) }
          if w < P.width then
            postErr s (16 + p.val / 2) 0 0x0501 p.val 0 (toLE 1 P.width ++ toLE 1 w ++ toLE 1 P.lanesGood)
          else s)

/-- The tags of port p complete with TIMEOUT and it holds its lanes in electrical idle (R259, R272, R440). -/
def idlePort (s : State) (p : Nat) : State :=
  let s := timeoutTags s p (fun _ => true)
  setPort s p (getP s p).idle

/-- A Chart brings port entries into force: a changed entry's port trains, an unused one holds its lanes idle (R272,
R278). -/
def portsByChart (s : State) (old : Option Chart) : State :=
  (List.range 24).foldl (fun s p =>
    let e := portEnt s p
    if old.isSome ∧ portEnt { s with chart := old } p = e then s
    else if e.neighbour = 0xFFFF then idlePort s p
    else toDetect (timeoutTags s p (fun _ => true)) p) s

/-! Registers (R279) -/

/-- STATE of BL_PORT_STAT. -/
def pstateCode (x : PState) : Nat :=
  match x with | .disabled => 0 | .detect => 1 | .training => 2 | .active => 3 | .retrain => 4 | .down => 5

/-- BL_PORT_STAT, BL_PORT_CNT and BL_PORT_TXN of a port (R279). -/
def portReg (P : Port) (k : Nat) : Word :=
  let up := P.state = .active ∨ P.state = .retrain
  match k with
  | 0 => toW (P.lanesGood % 256 * 2 ^ 40 + (if up then P.gen else 0) * 2 ^ 32 + P.partner % 4096 * 2 ^ 16 + P.reason % 8 * 256
      + (if up then P.width else 0) % 16 * 16 + pstateCode P.state)
  | 1 => toW (P.corr.toNat * 2 ^ 32 + P.replays * 2 ^ 16 + P.retrains)
  | 2 => toW (P.tags.length % 4096 * 2 ^ 48 + P.discards * 2 ^ 32 + P.late * 2 ^ 16 + P.timeouts)
  | _ => 0

/-- BL_TIMEOUT: a write below 12,500 sets 12,500 (R279). -/
def timeoutWrite (s : State) (l : Nat) (v : Word) : State :=
  { s with link := { s.link with timeout := s.link.timeout.set l (max 12500 (v.toNat % 2 ^ 32)) } }

end Machine
end Sys2Proof
end

