-- ==== Sys2Proof/Machine/Flags.lean ====
section
/-!
DEFINITION. Floating-point values, rounding and exception flags of the lane engine (R130, R175, R191): IEEE 754-2019
operations computed exactly on dyadic numbers and rounded once. A flag set is a number: bit 0 invalid, 1 division by
zero, 2 overflow, 3 underflow, 4 inexact, the order of LN_VCSR[12:8].
-/

namespace Sys2Proof
namespace Machine

/-- How an element format encodes its specials (07 Table 1): IEEE, E4M3, or none. -/
inductive FKind where | ieee | e4m3 | plain
deriving DecidableEq, Repr

/-- An element format (R175). -/
structure FFmt where
  kind : FKind
  ebits : Nat
  mbits : Nat
  bias : Nat
deriving DecidableEq, Repr

/-- FP64 (R175). -/
def fp64 : FFmt := { kind := .ieee, ebits := 11, mbits := 52, bias := 1023 }
/-- FP32 (R175). -/
def fp32 : FFmt := { kind := .ieee, ebits := 8, mbits := 23, bias := 127 }
/-- BF16 (R175). -/
def bf16 : FFmt := { kind := .ieee, ebits := 8, mbits := 7, bias := 127 }
/-- FP16 (R175). -/
def fp16 : FFmt := { kind := .ieee, ebits := 5, mbits := 10, bias := 15 }
/-- FP8 E5M2 (R175). -/
def fp8e5m2 : FFmt := { kind := .ieee, ebits := 5, mbits := 2, bias := 15 }
/-- FP8 E4M3 (R175). -/
def fp8e4m3 : FFmt := { kind := .e4m3, ebits := 4, mbits := 3, bias := 7 }
/-- FP6 E3M2 (R175). -/
def fp6e3m2 : FFmt := { kind := .plain, ebits := 3, mbits := 2, bias := 3 }
/-- FP6 E2M3 (R175). -/
def fp6e2m3 : FFmt := { kind := .plain, ebits := 2, mbits := 3, bias := 1 }
/-- FP4 E2M1 (R175). -/
def fp4e2m1 : FFmt := { kind := .plain, ebits := 2, mbits := 1, bias := 1 }

/-- Width in bits. -/
def fWidth (f : FFmt) : Nat := 1 + f.ebits + f.mbits
/-- Exponent of the smallest normal. -/
def fEmin (f : FFmt) : Int := 1 - (f.bias : Int)
/-- Exponent of the largest finite number (R175). -/
def fEmax (f : FFmt) : Int :=
  match f.kind with
  | .ieee => ((2 ^ f.ebits - 2 : Nat) : Int) - (f.bias : Int)
  | _ => ((2 ^ f.ebits - 1 : Nat) : Int) - (f.bias : Int)
/-- Fraction field of the largest finite number (R175). -/
def fMaxFrac (f : FFmt) : Nat := match f.kind with | .e4m3 => 2 ^ f.mbits - 2 | _ => 2 ^ f.mbits - 1

/-- A decoded value: NaN (with whether it is signalling), infinity, or sign, magnitude and the weight of its last bit
(R184 `decode`). -/
inductive FVal where
  | nan (sig : Bool)
  | inf (neg : Bool)
  | num (neg : Bool) (mag : Nat) (le : Int)
deriving DecidableEq, Repr

/-- Decode an encoding (R175, R184). -/
def fDecode (f : FFmt) (bits : Nat) : FVal :=
  let neg := bits.testBit (f.ebits + f.mbits)
  let e := fld bits (f.ebits + f.mbits - 1) f.mbits
  let m := bits % 2 ^ f.mbits
  if f.kind = .ieee ∧ e = 2 ^ f.ebits - 1 then
    if m = 0 then .inf neg else .nan (!m.testBit (f.mbits - 1))
  else if f.kind = .e4m3 ∧ e = 15 ∧ m = 7 then .nan false
  else if e = 0 then .num neg m (fEmin f - (f.mbits : Int))
  else .num neg (m + 2 ^ f.mbits) ((e : Int) - (f.bias : Int) - (f.mbits : Int))

/-- Assemble sign, exponent field and fraction (R186 `encode`). -/
def fPack (f : FFmt) (neg : Bool) (e m : Nat) : Nat :=
  b2n neg * 2 ^ (f.ebits + f.mbits) + e * 2 ^ f.mbits + m

/-- Canonical quiet NaN (R130, R178). -/
def fQnan (f : FFmt) : Nat := fPack f false (2 ^ f.ebits - 1) (2 ^ (f.mbits - 1))
/-- Infinity of a sign. -/
def fInf (f : FFmt) (neg : Bool) : Nat := fPack f neg (2 ^ f.ebits - 1) 0
/-- Largest finite number of a sign (R175). -/
def fMax (f : FFmt) (neg : Bool) : Nat := fPack f neg ((fEmax f + (f.bias : Int)).toNat) (fMaxFrac f)

/-- Flag numbers. -/
def flIV : Nat := 1
def flDZ : Nat := 2
def flOV : Nat := 4
def flUN : Nat := 8
def flIX : Nat := 16

/-- Rounding up in magnitude under LN_VCSR.RND: 0 TE, 1 TA, 4 TZ, 6 TN, 7 TP (R130). -/
def roundUp (rnd : Nat) (neg : Bool) (odd : Bool) (rem half : Nat) : Bool :=
  match rnd with
  | 0 => decide (rem > half) || (rem == half && odd)
  | 1 => decide (rem ≥ half)
  | 4 => false
  | 6 => neg && rem != 0
  | 7 => !neg && rem != 0
  | _ => decide (rem > half) || (rem == half && odd)

/-- A magnitude in units of 2^le rounded to units of 2^ql: quotient and whether it was inexact. -/
def roundAt (rnd : Nat) (neg : Bool) (mag : Nat) (le ql : Int) : Nat × Bool :=
  if ql > le then
    let sh := (ql - le).toNat
    let q := mag >>> sh
    let rem := mag % 2 ^ sh
    (q + b2n (roundUp rnd neg (q % 2 == 1) rem (2 ^ (sh - 1))), rem != 0)
  else (mag <<< (le - ql).toNat, false)

/-- Round ±mag × 2^le into a format: bits and flags (R130). Zero gives a zero of the sign. -/
def fRound (f : FFmt) (rnd : Nat) (neg : Bool) (mag : Nat) (le : Int) : Nat × Nat :=
  if mag = 0 then (fPack f neg 0 0, 0)
  else
    let top := le + (bitlen mag : Int) - 1
    let e := max top (fEmin f)
    let (q, ix) := roundAt rnd neg mag le (e - (f.mbits : Int))
    let (q, e) := if q ≥ 2 ^ (f.mbits + 1) then (q / 2, e + 1) else (q, e)
    if e > fEmax f ∨ (e = fEmax f ∧ q - 2 ^ f.mbits > fMaxFrac f) then
      let toInf := rnd = 0 ∨ rnd = 1 ∨ (rnd = 6 ∧ neg = true) ∨ (rnd = 7 ∧ neg = false)
      (if toInf then fInf f neg else fMax f neg, flOV + flIX)
    else
      let (qu, _) := roundAt rnd neg mag le (top - (f.mbits : Int))
      let tinyAfter := decide (top + 1 < fEmin f) || (decide (top < fEmin f) && decide (qu < 2 ^ (f.mbits + 1)))
      let tiny := if Config.tinyBeforeRounding then decide (top < fEmin f) else tinyAfter
      let fl := if ix then flIX + (if tiny then flUN else 0) else 0
      if q < 2 ^ f.mbits then (fPack f neg 0 q, fl)
      else (fPack f neg ((e + (f.bias : Int)).toNat) (q - 2 ^ f.mbits), fl)

/-- The invalid flag of a signalling NaN among operands. -/
def sigIV (l : List FVal) : Nat := if l.any (fun v => v == .nan true) then flIV else 0
/-- Some operand is a NaN. -/
def anyNan (l : List FVal) : Bool := l.any (fun v => match v with | .nan _ => true | _ => false)

/-- Exact sum of signed dyadic numbers: an integer in units of the least weight. -/
def dySum (l : List (Bool × Nat × Int)) : Int × Int :=
  match l with
  | [] => (0, 0)
  | (_, _, l0) :: _ =>
    let lo := l.foldl (fun m x => min m x.2.2) l0
    (l.foldl (fun a x =>
      let v : Int := ((x.2.1 <<< (x.2.2 - lo).toNat : Nat) : Int)
      if x.1 then a - v else a + v) 0, lo)

/-- Round an exact sum; an exact zero takes the common sign of its terms where they agree, else the sign of the
direction (IEEE 754-2019, R130). -/
def sumRound (f : FFmt) (rnd : Nat) (l : List (Bool × Nat × Int)) : Nat × Nat :=
  let (v, lo) := dySum l
  if v = 0 then
    let neg := if l.all (fun x => x.1 && x.2.1 == 0) then true
      else if l.all (fun x => !x.1 && x.2.1 == 0) then false
      else rnd == 6
    (fPack f neg 0 0, 0)
  else fRound f rnd (decide (v < 0)) v.natAbs lo

/-- IEEE addition (R130). -/
def fAdd (f : FFmt) (rnd a b : Nat) : Nat × Nat :=
  match fDecode f a, fDecode f b with
  | .num na ma la, .num nb mb lb => sumRound f rnd [(na, ma, la), (nb, mb, lb)]
  | .inf na, .inf nb => if na = nb then (fInf f na, 0) else (fQnan f, flIV)
  | .inf na, .num _ _ _ => (fInf f na, 0)
  | .num _ _ _, .inf nb => (fInf f nb, 0)
  | x, y => (fQnan f, sigIV [x, y])

/-- The number with its sign turned; NaNs included. -/
def fNeg (f : FFmt) (a : Nat) : Nat := a ^^^ 2 ^ (f.ebits + f.mbits)

/-- IEEE subtraction (R130). -/
def fSub (f : FFmt) (rnd a b : Nat) : Nat × Nat := fAdd f rnd a (fNeg f b)

/-- IEEE multiplication of two operands of format g rounded into format f (R130, R132). -/
def fMul (g f : FFmt) (rnd a b : Nat) : Nat × Nat :=
  match fDecode g a, fDecode g b with
  | .num na ma la, .num nb mb lb => fRound f rnd (xor na nb) (ma * mb) (la + lb)
  | .inf na, .inf nb => (fInf f (xor na nb), 0)
  | .inf na, .num nb mb _ => if mb = 0 then (fQnan f, flIV) else (fInf f (xor na nb), 0)
  | .num na ma _, .inf nb => if ma = 0 then (fQnan f, flIV) else (fInf f (xor na nb), 0)
  | x, y => (fQnan f, sigIV [x, y])

/-- A product as a value, with the invalid flag. -/
def fProd (x y : FVal) : FVal × Nat :=
  match x, y with
  | .num na ma la, .num nb mb lb => (.num (xor na nb) (ma * mb) (la + lb), 0)
  | .inf na, .inf nb => (.inf (xor na nb), 0)
  | .inf na, .num nb mb _ => if mb = 0 then (.nan false, flIV) else (.inf (xor na nb), 0)
  | .num na ma _, .inf nb => if ma = 0 then (.nan false, flIV) else (.inf (xor na nb), 0)
  | x, y => (.nan false, sigIV [x, y])

/-- a × b + c with a, b of format g and c of format f, one rounding (R130, R132). -/
def fFma (g f : FFmt) (rnd a b c : Nat) (negProd : Bool := false) : Nat × Nat :=
  let x := fDecode g (if negProd then fNeg g a else a)
  let y := fDecode g b
  let z := fDecode f c
  let (p, iv) := fProd x y
  if anyNan [x, y, z] then
    let q := if iv = flIV ∧ !anyNan [x, y] then (if Config.fmaZeroInfQuiet then flIV else 0) else 0
    (fQnan f, sigIV [x, y, z] ||| q)
  else
    match p, z with
    | .nan _, _ => (fQnan f, flIV)
    | .inf np, .inf nz => if np = nz then (fInf f np, 0) else (fQnan f, flIV)
    | .inf np, _ => (fInf f np, 0)
    | .num _ _ _, .inf nz => (fInf f nz, 0)
    | .num np mp lp, .num nz mz lz => sumRound f rnd [(np, mp, lp), (nz, mz, lz)]
    | _, _ => (fQnan f, 0)

/-- IEEE division (R130). -/
def fDiv (f : FFmt) (rnd a b : Nat) : Nat × Nat :=
  match fDecode f a, fDecode f b with
  | .num na ma la, .num nb mb lb =>
    if mb = 0 then (if ma = 0 then (fQnan f, flIV) else (fInf f (xor na nb), flDZ))
    else
      let k := f.mbits * 2 + 4
      let q := (ma <<< k) / mb
      let st := b2n ((ma <<< k) % mb != 0)
      fRound f rnd (xor na nb) (q * 2 + st) (la - lb - (k : Int) - 1)
  | .inf _, .inf _ => (fQnan f, flIV)
  | .inf na, .num nb _ _ => (fInf f (xor na nb), 0)
  | .num na _ _, .inf nb => (fPack f (xor na nb) 0 0, 0)
  | x, y => (fQnan f, sigIV [x, y])

/-- Integer square root, bit by bit from bit k - 1. -/
def isqrtAux (n : Nat) : Nat → Nat → Nat
  | 0, r => r
  | k + 1, r => let r' := r + 2 ^ k; isqrtAux n k (if r' * r' ≤ n then r' else r)

/-- Integer square root. -/
def isqrt (n : Nat) : Nat := isqrtAux n (bitlen n / 2 + 1) 0

/-- IEEE square root (R130). -/
def fSqrt (f : FFmt) (rnd a : Nat) : Nat × Nat :=
  match fDecode f a with
  | .num na ma la =>
    if ma = 0 then (fPack f na 0 0, 0)
    else if na then (fQnan f, flIV)
    else
      let k := f.mbits * 2 + 6 + ((la - (f.mbits : Int)) % 2).natAbs
      let k := if (la - (k : Int)) % 2 = 0 then k else k + 1
      let m := ma <<< k
      let r := isqrt m
      fRound f rnd false (r * 2 + b2n (r * r != m)) ((la - (k : Int)) / 2 - 1)
  | .inf na => if na then (fQnan f, flIV) else (fInf f false, 0)
  | x => (fQnan f, sigIV [x])

/-- Value order of two numbers or infinities: less, equal or greater. -/
def fOrd (x y : FVal) : Ordering :=
  match x, y with
  | .num na ma la, .num nb mb lb => compare (dySum [(na, ma, la), (!nb, mb, lb)]).1 0
  | .inf na, .inf nb => if na = nb then .eq else if na then .lt else .gt
  | .inf na, _ => if na then .lt else .gt
  | _, .inf nb => if nb then .gt else .lt
  | _, _ => .eq

/-- IEEE maximum or minimum (R191). -/
def fMinMax (f : FFmt) (isMax : Bool) (a b : Nat) : Nat × Nat :=
  let x := fDecode f a
  let y := fDecode f b
  if anyNan [x, y] then (fQnan f, sigIV [x, y])
  else
    match fOrd x y with
    | .lt => (if isMax then b else a, 0)
    | .gt => (if isMax then a else b, 0)
    | .eq =>
      let neg := a.testBit (f.ebits + f.mbits)
      -- equal values differ at most in the sign of zero
      (if neg == isMax then b else a, 0)

/-- The compares of 05 Table 2: 0 equal (quiet), 1 less, 2 less or equal (signalling). -/
def fCmp (f : FFmt) (k a b : Nat) : Bool × Nat :=
  let x := fDecode f a
  let y := fDecode f b
  if anyNan [x, y] then (false, if k = 0 then sigIV [x, y] else flIV)
  else
    match fOrd x y with
    | .lt => (k != 0, 0)
    | .eq => (k != 1, 0)
    | .gt => (false, 0)

/-- Magnitude of a, sign of b; a NaN result is the canonical one (R131, R178; assumption 26). -/
def fSgnj (f : FFmt) (a b : Nat) : Nat :=
  match fDecode f a with
  | .nan _ => fQnan f
  | _ => a % 2 ^ (f.ebits + f.mbits) + b2n (b.testBit (f.ebits + f.mbits)) * 2 ^ (f.ebits + f.mbits)

/-- Floating point to a signed integer of w bits (05 Table 2, 0x2B). -/
def fToInt (f : FFmt) (rnd w a : Nat) : Nat × Nat :=
  let hi : Int := ((2 ^ (w - 1) - 1 : Nat) : Int)
  let lo : Int := -((2 ^ (w - 1) : Nat) : Int)
  match fDecode f a with
  | .nan _ => (wrapI w hi, flIV)
  | .inf n => (wrapI w (if n then lo else hi), flIV)
  | .num neg mag le =>
    let (q, ix) := roundAt rnd neg mag le 0
    let v : Int := if neg then -(q : Int) else (q : Int)
    if v > hi then (wrapI w hi, flIV)
    else if v < lo then (wrapI w lo, flIV)
    else (wrapI w v, if ix then flIX else 0)

/-- Signed integer of w bits to floating point (05 Table 2, 0x2C). -/
def fFromInt (f : FFmt) (rnd w a : Nat) : Nat × Nat :=
  let v := sInt w a
  fRound f rnd (decide (v < 0)) v.natAbs 0

/-- The exact sum of an addend and products, rounded once (R133): a NaN operand, an infinity times zero, and infinities
of opposite signs give the canonical NaN, the latter two with IV. A signalling addend sets IV and a signalling product
operand does not: R133 does not name IV for either (DESIGN CHOICE, assumption 124). -/
def fDot (g1 g2 f : FFmt) (rnd acc : Nat) (ps : List (Nat × Nat)) : Nat × Nat :=
  let z := fDecode f acc
  let prods := ps.map (fun p =>
    let x := fDecode g1 p.1
    let y := fDecode g2 p.2
    if anyNan [x, y] then (FVal.nan false, 0) else fProd x y)
  let iv := prods.foldl (fun a p => a ||| p.2) (sigIV [z])
  let terms := z :: prods.map (fun p => p.1)
  if anyNan terms then (fQnan f, iv)
  else
    let pinf := terms.any (fun v => v == .inf false)
    let ninf := terms.any (fun v => v == .inf true)
    if pinf && ninf then (fQnan f, iv ||| flIV)
    else if pinf then (fInf f false, iv)
    else if ninf then (fInf f true, iv)
    else
      let r := sumRound f rnd (terms.filterMap (fun v => match v with | .num n m l => some (n, m, l) | _ => none))
      (r.1, r.2 ||| iv)

end Machine
end Sys2Proof
end

