-- ==== Sys2Proof/Machine/Update.lean ====
section
/-!
DEFINITION. The parameter update engines: table records and their reload (R283, R284), checks and step rule (R286 to
R288), arithmetic (R289 to R292), embedding rows (R293), acks (R282).
-/

namespace Sys2Proof
namespace Machine

/-! Registers (R296) -/

/-- Whose writes to the engine registers take effect (R296). -/
def ueWriter (s : State) (a : Agent) : Bool :=
  match a with
  | .activeLs => true
  | .host => true
  | .tile t => match constOfTile s t.val with | some k => k.flags.testBit 1 | none => false
  | _ => false

/-- Table k of an engine. -/
def ueTab (E : Engine) (k : Nat) : UeTab := mget E.tabs UeTab.reset k

/-- Every engine with its table k updated. -/
def modTabs (s : State) (k : Nat) (f : UeTab → UeTab) : State :=
  (List.range 12).foldl (fun s l =>
    let E := getE s l
    setE s l { E with tabs := mset E.tabs k (f (ueTab E k)) }) s

/-- UE_RELOAD: bit k of the mask makes every engine copy record k (R284). -/
def execUeReload (a : Agent) (mask : BitVec 64) (s : State) : Host.Outcome State Fault Refusal :=
  .next (if ueWriter s a then
    (bitsOf 64 mask.toNat).foldl (fun s k => modTabs s k (fun t => { t with loading := true })) s else s)

/-- UE_UNPARK: bit k of the mask unparks table k (R288). -/
def execUeUnpark (a : Agent) (mask : BitVec 64) (s : State) : Host.Outcome State Fault Refusal :=
  .next (if ueWriter s a then
    let s := { s with link := { s.link with parking := s.link.parking.filter (fun k => !mask.toNat.testBit k) } }
    (bitsOf 64 mask.toNat).foldl (fun s k => modTabs s k (fun t => { t with parked := false })) s else s)

/-- After module reset and after a full Chart load every table is invalid and unparked (R284, R295). -/
def ueInvalidate (s : State) : State :=
  (List.range 12).foldl (fun s l =>
    let s := { s with link := { s.link with parking := [] } }
    let E := getE s l
    setE s l { E with tabs := E.tabs.map (fun (k, t) =>
      (k, { t with valid := false, loading := false, parked := false, reason := 0, rec_ := [] })) }) s

/-! Table records (R283, R284) -/

/-- RULE of a record. -/
def ueRule (r : List Byte) : Nat := leAt r 0 1
/-- EMBED of a record. -/
def ueEmbed (r : List Byte) : Bool := (leAt r 1 1).testBit 1
/-- The rule keeps a second state array. -/
def ueTwo (r : List Byte) : Bool := ueRule r == 1 || ueRule r == 3
/-- State values per element: 1, or the block side of a whitened rule (R285). -/
def ueV (r : List Byte) : Nat := if ueRule r = 4 then 2 else if ueRule r = 5 then 4 else 1
/-- Parameter size (R285). -/
def ueP (r : List Byte) : Nat := if (leAt r 2 1).testBit 0 then 2 else 4
/-- Format code of S1 or S2: 0 E4M3, 1 E5M2, 2 FP32 (R283). -/
def ueFmt (r : List Byte) (two : Bool) : Nat := if two then fld (leAt r 2 1) 5 4 else fld (leAt r 2 1) 3 2
/-- STEP, the local step t. -/
def ueStep (r : List Byte) : Nat := leAt r 4 4
/-- BLOCKS. -/
def ueBlocks (r : List Byte) : Nat := leAt r 8 4

/-- A base obeys Table 4: a multiple of 128 below 2^48. -/
def baseOk (v : Nat) : Bool := v % 128 == 0

/-- The first failed item of R284, numbered from 1; 0 where the copy is valid. -/
def ueReason (r : List Byte) : Nat :=
  let fm := leAt r 2 1
  let base := fun o => leAt r o 8
  let embed := ueEmbed r
  let rb := leAt r 3 1
  if !(leAt r 1 1).testBit 0 then 1
  else if leAt r 1 1 ≥ 4 ∨ fm ≥ 64 ∨ leAt r 0x0C 4 ≠ 0 ∨ ((r.drop 0x4C).any (· != 0#8))
      ∨ [0x10, 0x18, 0x20, 0x28].any (fun o => base o ≥ 2 ^ 48) ∨ (!embed ∧ rb ≠ 0) then 2
  else if ueRule r ≥ 6 ∨ !(featReg 3).toNat.testBit (ueRule r) then 3
  else if fld fm 3 2 = 3 ∨ fld fm 5 4 = 3 ∨ (!ueTwo r ∧ fld fm 5 4 ≠ 0) then 4
  else if !(baseOk (base 0x10) && baseOk (base 0x18) && (if ueTwo r then baseOk (base 0x20) else base 0x20 == 0)
      && (if embed then baseOk (base 0x28) else base 0x28 == 0)) then 5
  else if ueStep r = 0 ∨ ueBlocks r = 0 then 6
  else if embed ∧ (rb = 0 ∨ rb > 64 ∨ ueBlocks r % rb ≠ 0) then 7
  else 0

/-- UE_RELOAD_DONE: engine l takes its copy of record k from memory and judges it (R284). A record that cannot be read
is taken as zeros, which is not VALID (assumption 40). -/
def execUeReloadDone (l : LDie) (k : Fin 64) (errs : List SymErr) (s : State) : Host.Outcome State Fault Refusal :=
  .next (
    let E := getE s l.val
    let t := ueTab E k.val
    if !t.loading then s
    else
      match cohReadFrom s (16 + l.val) ((wfld s.link.ueDir 47 13) * 8192 + 128 * k.val) 128 2 true errs with
      | none => s
      | some x =>
        let r := if x.st = 0 ∧ !(x.pois.any id) then x.bytes else List.replicate 128 0#8
        let re := ueReason r
        let E := getE x.s l.val
        let t' : UeTab := { ueTab E k.val with rec_ := r, valid := re == 0, reason := re, loading := false }
        setE x.s l.val { E with tabs := mset E.tabs k.val t' })

/-! The bytes a put touches (R285) -/

/-- The value and scale ranges of a state array for blocks j to j + n - 1: (address, length). -/
def stateSpans (r : List Byte) (base fmt j n : Nat) : List (Nat × Nat) :=
  let v := ueV r
  if fmt = 2 then [(base + 32 * v * j * 4, 32 * v * n * 4)]
  else [(base + 32 * v * j, 32 * v * n), (base + 32 * v * ueBlocks r + v * j, v * n)]

/-- Every range a put of blocks j to j + n - 1 touches: parameters first, then state, scales and header (R285). -/
def putSpans (r : List Byte) (j n : Nat) : List (Nat × Nat) :=
  let p := ueP r
  [(leAt r 0x10 8 + 32 * p * j, 32 * p * n)] ++ stateSpans r (leAt r 0x18 8) (ueFmt r false) j n
    ++ (if ueTwo r then stateSpans r (leAt r 0x20 8) (ueFmt r true) j n else [])
    ++ (if ueEmbed r then [(leAt r 0x28 8 + 4 * (j / max 1 (leAt r 3 1)), 4)] else [])

/-- The block number of a put, where its address and length fit the table (R286 check 3). -/
def putBlock (r : List Byte) (x : Put) : Option Nat :=
  let p := ueP r
  let b := leAt r 0x10 8
  if x.addr < b ∨ (x.addr - b) % (32 * p) ≠ 0 then none
  else
    let j := (x.addr - b) / (32 * p)
    let rb := max 1 (leAt r 3 1)
    if j + x.n > ueBlocks r then none
    else if ueEmbed r ∧ j / rb ≠ (j + x.n - 1) / rb then none else some j

/-- The constellation that owns a range of module memory, if one owns all of it (R57). -/
def spanOwner (s : State) (a n : Nat) : Option Constel :=
  match s.chart with
  | none => none
  | some c => c.consts.find? (fun k =>
      (List.range ((a + n - 1) / 2 ^ 30 + 1 - a / 2 ^ 30)).all (fun i => a / 2 ^ 30 + i < 1024 && k.regions.testBit (a / 2 ^ 30 + i)))

/-- The constellation of a put: every byte it touches in regions of one constellation with UPDATE set (R286 check 4). -/
def putOwner (s : State) (spans : List (Nat × Nat)) : Option Constel :=
  match spans with
  | [] => none
  | (a, n) :: _ =>
    match spanOwner s a n with
    | none => none
    | some k =>
      if k.flags.testBit 1 && spans.all (fun sp => ((spanOwner s sp.1 sp.2).map (·.id)) == some k.id) then some k else none

/-! Arithmetic (R289 to R292) -/

/-- FP32 operations under RNE, flags dropped (R289). -/
def u32add (a b : Nat) : Nat := (fAdd fp32 0 a b).1
def u32sub (a b : Nat) : Nat := (fSub fp32 0 a b).1
def u32mul (a b : Nat) : Nat := (fMul fp32 fp32 0 a b).1
def u32div (a b : Nat) : Nat := (fDiv fp32 0 a b).1
def u32sqrt (a : Nat) : Nat := (fSqrt fp32 0 a).1
/-- 1.0 in FP32. -/
def u32one : Nat := 0x3F800000

/-- `powi` of R289: 32 squarings, the bits of n from the top. -/
def powi (b n : Nat) : Nat :=
  (List.range 32).foldl (fun r i =>
    let r := u32mul r r
    if n.testBit (31 - i) then u32mul r b else r) u32one

/-- Format of a code: 0 E4M3, 1 E5M2. -/
def ue8 (c : Nat) : FFmt := if c = 0 then fp8e4m3 else fp8e5m2

/-- An FP8 value with its scale, as FP32 (R289). -/
def scaledFp8 (f : FFmt) (bits scale : Nat) : Nat :=
  if scale = 255 then fQnan fp32
  else
    match fDecode f bits with
    | .nan _ => fQnan fp32
    | .inf neg => fInf fp32 neg
    | .num neg mag le => (fRound fp32 0 neg mag (le + (scale : Int) - 127)).1

/-- A block written in an FP8 format with its scale by R192: the scale byte and the elements. -/
def quantBlock (f : FFmt) (vs : List Nat) : Nat × List Nat :=
  let ds := vs.map (fDecode fp32)
  if anyNan ds then (255, vs.map (fun _ => 0))
  else
    let tops := ds.filterMap (fun d => match d with
      | .num _ mag le => if mag = 0 then none else some (le + (bitlen mag : Int) - 1)
      | _ => none)
    let X := match tops with
      | [] => (0 : Int)
      | t :: r => max (-127) (min 127 (r.foldl max t - fEmax f))
    ((X + 127).toNat, ds.map (fun d => match d with
      | .num neg mag le =>
        let r := fRound f 0 neg mag (le - X)
        if r.2 &&& flOV ≠ 0 then fMax f neg else r.1
      | .inf neg => fMax f neg
      | .nan _ => 0))

/-- `step_elem` of R290: new parameter, state values and u. -/
def stepElem (r : List Byte) (t dl g th s1 s2 : Nat) : Nat × Nat × Nat × Nat :=
  let c := fun o => leAt r o 4
  let b1 := c 0x34
  let b2 := c 0x38
  let eps := c 0x3C
  let (u, s1, s2) :=
    match ueRule r with
    | 0 =>
      let s1 := u32add (u32mul (powi b1 dl) s1) g
      (s1, s1, s2)
    | 2 =>
      let s1 := u32add s1 (u32mul g g)
      (u32div g (u32add (u32sqrt s1) eps), s1, s2)
    | _ =>
      let s1 := u32add (u32mul (powi b1 dl) s1) (u32mul (u32sub u32one b1) g)
      let s2 := u32add (u32mul (powi b2 dl) s2) (u32mul (u32sub u32one b2) (u32mul g g))
      let m := u32div s1 (u32sub u32one (powi b1 t))
      let v := u32div s2 (u32sub u32one (powi b2 t))
      (u32div m (u32add (u32sqrt v) eps), s1, s2)
  let u := u32add u (u32mul (c 0x40) th)
  let lr := if ueRule r = 3 then u32mul (c 0x30) (c 0x44) else c 0x30
  (u32sub th (u32mul lr u), s1, s2, u)

/-- FP32 compare: a ≥ b, false with a NaN. -/
def u32ge (a b : Nat) : Bool := !(anyNan [fDecode fp32 a, fDecode fp32 b]) && fOrd (fDecode fp32 a) (fDecode fp32 b) != .lt

/-- The Cholesky factor of a b x b matrix plus eps on its diagonal, row-major; none where a pivot falls below the
threshold (R291). -/
def cholesky (b : Nat) (P : List Nat) (eps pmin : Nat) : Option (List Nat) :=
  (List.range b).foldl (fun (acc : Option (List Nat)) j => acc.bind (fun L =>
    let at_ := fun (L : List Nat) i k => L.getD (b * i + k) 0
    let q := (List.range j).foldl (fun q k => u32sub q (u32mul (at_ L j k) (at_ L j k))) (u32add (P.getD (b * j + j) 0) eps)
    if !u32ge q pmin then none
    else
      let L := L.set (b * j + j) (u32sqrt q)
      some ((List.range b).foldl (fun L i =>
        if i ≤ j then L
        else
          let x := (List.range j).foldl (fun x k => u32sub x (u32mul (at_ L i k) (at_ L j k))) (P.getD (b * i + j) 0)
          L.set (b * i + j) (u32div x (at_ L j j))) L))) (some (List.replicate (b * b) 0))

/-- `whiten` of R291 on one sub-block: new parameters, preconditioner, and whether it fell back. -/
def whiten (r : List Byte) (b dl : Nat) (g th P : List Nat) : List Nat × List Nat × Bool :=
  let c := fun o => leAt r o 4
  let b2 := c 0x38
  let d2 := powi b2 dl
  let P := (List.range (b * b)).map (fun i =>
    let x := min (i / b) (i % b)
    let y := max (i / b) (i % b)
    u32add (u32mul d2 (P.getD (b * x + y) 0)) (u32mul (u32sub u32one b2) (u32mul (g.getD x 0) (g.getD y 0))))
  let f := cholesky b P (c 0x3C) (c 0x48)
  let u := match f with
    | some L =>
      (List.range b).foldl (fun (u : List Nat) i =>
        let x := (List.range i).foldl (fun x k => u32sub x (u32mul (L.getD (b * i + k) 0) (u.getD k 0))) (g.getD i 0)
        u ++ [u32div x (L.getD (b * i + i) 0)]) []
    | none => (List.range b).map (fun i => u32div (g.getD i 0) (u32sqrt (u32add (P.getD (b * i + i) 0) (c 0x3C))))
  ((List.range b).map (fun i =>
      let t := th.getD i 0
      u32sub t (u32mul (c 0x30) (u32add (u.getD i 0) (u32mul (c 0x40) t)))), P, f.isNone)

/-- The k-th element of a byte list of a width, as a number. -/
def elemOf (l : List Byte) (w k : Nat) : Nat := leAt l (w * k) w

/-- Read the values of one state block as FP32: `bytes` its values, `scales` its scale bytes (R289). -/
def stateVals (fmt : Nat) (bytes scales : List Byte) : List Nat :=
  if fmt = 2 then (List.range (bytes.length / 4)).map (elemOf bytes 4)
  else (List.range bytes.length).map (fun i => scaledFp8 (ue8 fmt) (elemOf bytes 1 i) (elemOf scales 1 (i / 32)))

/-- The bytes and scale bytes of a state block as written (R289). -/
def statePut (fmt : Nat) (vs : List Nat) : List Byte × List Byte :=
  if fmt = 2 then (vs.flatMap (toLE 4), [])
  else
    let qs := (List.range (vs.length / 32)).map (fun i => quantBlock (ue8 fmt) ((vs.drop (32 * i)).take 32))
    (qs.flatMap (fun q => q.2.map (BitVec.ofNat 8)), qs.map (fun q => BitVec.ofNat 8 q.1))

/-- What the computation of one block gives: parameters, state values, sums, fallbacks. -/
structure BlockRes where
  th : List Nat
  s1 : List Nat
  s2 : List Nat
  np : Nat
  nu : Nat
  fb : Nat

/-- One block of a put (R290, R291, R292). -/
def ueBlock (r : List Byte) (t dl : Nat) (g th s1 s2 : List Nat) (np nu : Nat) : BlockRes :=
  if ueRule r ≥ 4 then
    let b := ueV r
    let parts := (List.range (32 / b)).map (fun i =>
      whiten r b dl ((g.drop (b * i)).take b) ((th.drop (b * i)).take b) ((s1.drop (b * b * i)).take (b * b)))
    { th := parts.flatMap (·.1), s1 := parts.flatMap (·.2.1), s2 := [], np := np, nu := nu
      fb := (parts.filter (·.2.2)).length }
  else
    let es := (List.range 32).map (fun i => stepElem r t dl (g.getD i 0) (th.getD i 0) (s1.getD i 0) (s2.getD i 0))
    let sq := fun (n v : Nat) => (fAdd fp64 0 n (fMul fp32 fp64 0 v v).1).1
    let (np, nu) := if ueRule r = 3 then
        (List.range 32).foldl (fun (x : Nat × Nat) i => (sq x.1 (th.getD i 0), sq x.2 ((es.getD i (0, 0, 0, 0)).2.2.2))) (np, nu)
      else (np, nu)
    { th := es.map (·.1), s1 := es.map (·.2.1), s2 := if ueTwo r then es.map (·.2.2.1) else [], np := np, nu := nu, fb := 0 }

/-! Performing a put (R286, R293) -/

/-- Read a list of ranges: the bytes of each, whether any was poisoned, and the state; none while one waits. -/
def readSpans (s : State) (spans : List (Nat × Nat)) (errs : List SymErr) : Option (List (List Byte) × Bool × State) :=
  spans.foldl (fun acc sp => acc.bind (fun (l, p, s) =>
    (cohRead s sp.1 sp.2 2 true errs).map (fun x => (l ++ [x.bytes], p || x.pois.any id, x.s)))) (some ([], false, s))

/-- Write a list of (address, bytes); none while one waits. -/
def writeSpans (s : State) (ws : List (Nat × List Byte)) : Option State :=
  ws.foldl (fun acc w => acc.bind (fun s => (cohWriteB s w.1 w.2 2 []).map (·.2))) (some s)

/-- Park table k on the engine of link die l; the park reaches the others within 1 µs, here with the next AON tick (R288, R295;
assumption 134). -/
def parkTable (s : State) (l k : Nat) : State :=
  let E := getE s l
  let s := setE s l { E with tabs := mset E.tabs k { ueTab E k with parked := true } }
  { s with link := { s.link with parking := sIns s.link.parking k } }

/-- The parks under way reach every engine (R288). -/
def spreadParks (s : State) : State :=
  let s' := s.link.parking.foldl (fun s k => modTabs s k (fun t => { t with parked := true })) s
  { s' with link := { s'.link with parking := [] } }

/-- Some earlier waiting put may overlap put x: its table's ranges meet those of x (R287). -/
def putsMeet (E : Engine) (x y : Put) : Bool :=
  let f := fun (z : Put) =>
    let t := ueTab E z.table
    match putBlock t.rec_ z with | some j => putSpans t.rec_ j z.n | none => []
  (f x).any (fun a => (f y).any (fun b => a.1 < b.1 + b.2 && b.1 < a.1 + a.2))

/-- Apply a put that has passed checks 1 to 4 and the step rule; the state and whether a block read held poison, none
while an access waits (R286 check 6, R289 to R293). -/
def applyPut (s : State) (l : Nat) (x : Put) (j t : Nat) (errs : List SymErr) : Option (State × Bool × Nat) :=
  let E := getE s l
  let T := ueTab E x.table
  let r := T.rec_
  let p := ueP r
  let v := ueV r
  let n := x.n
  match readSpans s (putSpans r j n) errs with
  | none => none
  | some (bs, poison, s) =>
    if poison || (List.range n).any (fun q => x.poison.testBit q) then some (s, true, 0)
    else
      let f1 := ueFmt r false
      let f2 := ueFmt r true
      let i2 := if f1 = 2 then 2 else 3
      let ih := i2 + (if ueTwo r then (if f2 = 2 then 1 else 2) else 0)
      let s1 := stateVals f1 (bs.getD 1 []) (if f1 = 2 then [] else bs.getD 2 [])
      let s2 := if ueTwo r then stateVals f2 (bs.getD i2 []) (if f2 = 2 then [] else bs.getD (i2 + 1) []) else []
      let th := (List.range (32 * n)).map (fun i =>
        if p = 2 then elemOf (bs.getD 0 []) 2 i * 65536 else elemOf (bs.getD 0 []) 4 i)
      let last := leAt (bs.getD ih []) 0 4
      let dl := if ueEmbed r then (sInt 32 (t + 2 ^ 32 - last)).toNat else 1
      let gf := if (leAt r 2 1).testBit 1 then fp8e5m2 else fp8e4m3
      let go := (List.range n).foldl (fun (acc : List BlockRes × Nat × Nat) q =>
        let g := (List.range 32).map (fun i =>
          scaledFp8 gf (((x.data.getD q []).getD i 0#8).toNat) ((x.scales.getD q 0#8).toNat))
        let b := ueBlock r t dl g ((th.drop (32 * q)).take 32) ((s1.drop (32 * v * q)).take (32 * v))
          ((s2.drop (32 * q)).take 32) acc.2.1 acc.2.2
        (acc.1 ++ [b], b.np, b.nu)) ([], T.normP.toNat, T.normU.toNat)
      let blocks := go.1
      let thB := blocks.flatMap (fun b => b.th.flatMap (fun w =>
        if p = 2 then
          (match fDecode fp32 w with
           | .nan _ => toLE 2 (fQnan bf16)
           | .inf neg => toLE 2 (fInf bf16 neg)
           | .num neg mag le => toLE 2 (fRound bf16 0 neg mag le).1)
        else toLE 4 w))
      let w1 := statePut f1 (blocks.flatMap (·.s1))
      let w2 := statePut f2 (blocks.flatMap (·.s2))
      let spans := putSpans r j n
      let addr := fun k => (spans.getD k (0, 0)).1
      let ws : List (Nat × List Byte) := [(addr 0, thB), (addr 1, w1.1)] ++ (if f1 = 2 then [] else [(addr 2, w1.2)])
        ++ (if ueTwo r then [(addr i2, w2.1)] ++ (if f2 = 2 then [] else [(addr (i2 + 1), w2.2)]) else [])
        ++ (if ueEmbed r ∧ (j + n) % leAt r 3 1 = 0 then [(addr ih, toLE 4 t)] else [])
      match writeSpans s ws with
      | none => none
      | some s =>
        let nan := fun (b : BlockRes) => b.th.any (fun w => anyNan [fDecode fp32 w])
        let fb := blocks.foldl (fun a b => a + b.fb) 0
        let E := getE s l
        let T := ueTab E x.table
        let T := { T with
          fallback := T.fallback + BitVec.ofNat 32 fb
          nans := T.nans + BitVec.ofNat 32 (blocks.filter nan).length
          blocks := T.blocks + BitVec.ofNat 32 n
          normP := toW go.2.1, normU := toW go.2.2 }
        some (setE s l { E with tabs := mset E.tabs x.table T }, false, fb)

/-- The outcome of a put: its RESULT, FALLBACKS and t, and the state; none while it waits (R282, R286). -/
def judgePut (s : State) (l : Nat) (x : Put) (errs : List SymErr) : Option (Nat × Nat × Nat × State) :=
  let T := ueTab (getE s l) x.table
  let t := ueStep T.rec_
  if T.loading then none
  else if !T.valid then some (3, 0, t, s)
  else if T.parked then some (2, 0, t, s)
  else
    match putBlock T.rec_ x with
    | none => some (4, 0, t, s)
    | some j =>
      let spans := putSpans T.rec_ j x.n
      match putOwner s spans with
      | none => some (5, 0, t, s)
      | some k =>
        match (spans.find? (fun sp => (statusFrom s (16 + l) sp.1 sp.2).1 == 2)) with
        | some sp => some (7, 0, t, (statusFrom s (16 + l) sp.1 sp.2).2)
        | none =>
          let d := sInt 32 (x.s + 2 ^ 32 - t)
          if d.natAbs > k.stepTol then
            some (2, 0, t, postErr (parkTable s l x.table) (16 + l) 2 0x0601 x.table 0 (toLE 4 x.s ++ toLE 4 t))
          else
            match applyPut s l x j t errs with
            | none => none
            | some (s, true, _) => some (6, 0, t, s)
            | some (s, false, fb) =>
              if d = 0 then some (0, fb, t, s)
              else
                let E := getE s l
                let T := ueTab E x.table
                some (1, fb, t, setE s l { E with tabs := mset E.tabs x.table { T with mismatch := T.mismatch + 1 } })

/-- UPDATE_PUT: the home engine of link die l takes its k-th waiting put, checks it and applies the rule; it waits
behind an earlier put whose ranges it meets (R286, R287). On a fenced link die every put is answered FENCED (R431); on an
orphaned one the engine has stopped (R440). -/
def execUpdatePut (l : LDie) (k : Nat) (errs : List SymErr) (s : State) : Host.Outcome State Fault Refusal :=
  .next (
    let E := getE s l.val
    match E.waiting[k]? with
    | none => s
    | some x =>
      if (getW s (16 + l.val)).wkState.toNat.testBit 4 then s
      else if s.link.linkFenced.contains l.val then
        setE s l.val { E with waiting := E.waiting.eraseIdx k, done := E.done ++ [(x, 0, 7, 0, ueStep (ueTab E x.table).rec_)] }
      else if (E.waiting.take k).any (fun y => putsMeet E x y) then s
      else
        match judgePut s l.val x errs with
        | none => s
        | some (re, fb, t, s) =>
          let E := getE s l.val
          setE s l.val { E with waiting := E.waiting.eraseIdx k, done := E.done ++ [(x, 0, re, fb, t)] })

/-- UPDATE_ACK: the engine sends the ack of its oldest finished put, whose writes have all been performed (R282). -/
def execUpdateAck (l : LDie) (s : State) : Host.Outcome State Fault Refusal :=
  .next (
    let E := getE s l.val
    match E.done with
    | [] => s
    | (x, st, re, fb, t) :: r =>
      let s := setE s l.val { E with done := r }
      let operand := toLE 1 re ++ toLE 1 fb ++ [0#8, 0#8] ++ toLE 4 t
      match x.src with
      | .port p y => sendResponse s p (responseOf y st [] 0 operand)
      | .dma q idx k => dmaAnswer s { q := q, idx := idx, k := k, st := st, bytes := [], pois := [], operand := operand })

/-- The registers of an engine at offset 0x1000 + 64 k + 8 i of its window (R296). -/
def ueTabReg (T : UeTab) (i : Nat) : Word :=
  match i with
  | 0 => toW (T.reason * 16 + b2n T.parked * 4 + b2n T.loading * 2 + b2n T.valid)
  | 1 => toW (T.mismatch.toNat * 2 ^ 32 + T.fallback.toNat)
  | 2 => toW (T.nans.toNat * 2 ^ 32 + T.blocks.toNat)
  | 3 => T.normP
  | 4 => T.normU
  | _ => 0

end Machine
end Sys2Proof
end

