-- ==== Sys2Proof/Machine/ChartCheck.lean ====
section
/-!
DEFINITION. Reading a Chart image (R42 to R57) and its validation (R58 to R62, R66, R479).
-/

namespace Sys2Proof
namespace Machine

/-- A section of an image: its directory index, TYPE, VERSION, TAG, OFFSET, LENGTH and bytes (R45). -/
structure Sec where
  ix : Nat
  type : Nat
  version : Nat
  tag : Nat
  off : Nat
  len : Nat
  bytes : List Byte
deriving DecidableEq, Repr

/-- n bytes of an image from offset o. -/
def cut (b : List Byte) (o n : Nat) : List Byte := (b.drop o).take n

/-- Every byte of a list is zero. -/
def allZero (l : List Byte) : Bool := l.all (· == 0#8)

/-- The sections an image's directory lists. -/
def secsOf (b : List Byte) : List Sec :=
  let h := cut b 0 256
  let dir := cut b 0x100 (16 * leAt h 0x0E 2)
  (List.range (leAt h 0x0E 2)).map (fun i =>
    let e := cut dir (16 * i) 16
    { ix := i, type := leAt e 0 2, version := leAt e 2 1, tag := leAt e 3 1, off := leAt e 4 4, len := leAt e 8 4
      bytes := cut b (leAt e 4 4) (leAt e 8 4) })

/-- The section of a type and tag. -/
def secBy (l : List Sec) (type tag : Nat) : Option Sec := l.find? (fun x => x.type == type && x.tag == tag)

/-- The bytes of the section of a type and tag. -/
def secBytes (l : List Sec) (type tag : Nat) : List Byte := ((secBy l type tag).map (·.bytes)).getD []

/-! The sections' content (R47 to R57) -/

/-- Entries of a QUEUE section (R54). -/
def queueEnts (b : List Byte) : List QueueEnt :=
  (List.range (leAt b 0 2)).map (fun i =>
    let e := cut b (0x10 + 16 * i) 16
    { queue := leAt e 0 2, flags := leAt e 2 2, reserve := leAt e 4 4, max := leAt e 8 4, watchdog := leAt e 12 4 })

/-- An ENVELOPE section (R56). -/
def envelopeOf (b : List Byte) : Envelope := { capW := leAt b 0 2, topOp := leAt b 2 1, t2Idle := leAt b 4 4 }

/-- Offsets of the n instance records of a CONSTELLATION section (R57). -/
def instOffs (b : List Byte) : Nat → Nat → List Nat
  | 0, _ => []
  | n + 1, o => o :: instOffs b n (o + 8 + 16 * leAt b (o + 1) 1)

/-- An instance record (R57). -/
def instOf (b : List Byte) (o : Nat) : ModelCopy :=
  { number := leAt b o 1, minReplicas := leAt b (o + 2) 1, fbConst := leAt b (o + 3) 1, fbCopy := leAt b (o + 4) 1
    shards := (List.range (leAt b (o + 1) 1)).map (fun j =>
      { die := leAt b (o + 8 + 16 * j) 1, replicas := leAt b (o + 16 + 16 * j) 8 }) }

/-- The offsets of a section's instance records. -/
def constInsts (b : List Byte) : List Nat := instOffs b (leAt b 4 1) 0x190

/-- The three sections of constellation c (R54, R56, R57). -/
def constelOf (l : List Sec) (c : Nat) : Constel :=
  let b := secBytes l 9 c
  { id := c, flags := leAt b 1 1, minTiles := leAt b 2 2, lsSteps := leAt b 5 1, stepTol := leAt b 6 2
    tiles := leAt b 0x10 128, retired := leAt b 0x90 128, regions := leAt b 0x110 128
    copies := (constInsts b).map (instOf b), queues := queueEnts (secBytes l 7 c), env := envelopeOf (secBytes l 8 c) }

/-- The Chart of a full image (R43, R47 to R57). -/
def chartOf (b : List Byte) : Chart :=
  let h := cut b 0 256
  let l := secsOf b
  let m := secBytes l 1 0xFF
  let p := secBytes l 2 0xFF
  let i := secBytes l 3 0xFF
  let lp := secBytes l 5 0xFF
  let me := secBytes l 6 0xFF
  { serial := leAt h 0x18 8, moduleId := leAt h 0x0C 2 % 4096, constCount := leAt m 0 1, lsSteps := leAt m 1 1
    sweepTicks := leAt m 4 4, quiesceTicks := leAt m 8 4, enables := leAt p 0 8
    debugMax := (List.range 64).map (fun c => leAt p (0x40 + c) 1)
    interleave := (List.range 1024).map (fun r => (leAt (cut i (4 * r) 4) 0 2, leAt (cut i (4 * r) 4) 2 1))
    route := (secBytes l 4 0xFF).map (·.toNat)
    ports := (List.range 24).map (fun q =>
      { neighbour := leAt lp (8 * q) 2, nport := leAt lp (8 * q + 2) 1, minWidth := leAt lp (8 * q + 3) 1, flags := leAt lp (8 * q + 4) 1 })
    routes := (List.range 4096).filterMap (fun k =>
      let e := cut lp (0xC0 + 2 * k) 2
      let r := (leAt e 0 1, leAt e 1 1)
      if r = (0xFF, 0xFF) then none else some (k, r))
    ruleVersion := leAt me 0 2, channels := (List.range 64).map (fun c => leAt me (0x40 + c) 1), meterBytes := me
    queues := queueEnts (secBytes l 7 0xFF), env := envelopeOf (secBytes l 8 0xFF)
    consts := (List.range (leAt m 0 1)).map (constelOf l) }

/-- The Chart that an amendment image leaves (R66): the sections of TARGET replaced, and the serial. -/
def amendedChart (ch : Chart) (b : List Byte) : Chart :=
  let h := cut b 0 256
  let k := constelOf (secsOf b) (leAt h 0x0B 1)
  { ch with serial := leAt h 0x18 8, consts := ch.consts.map (fun x => if x.id = k.id then k else x) }

/-! Checks. A failure is the code of Table 6, the directory index and the image offset of the failing field (R61, R63). -/

abbrev Fail := Nat × Nat × Nat

/-- The first failure of a list of checks: whether each holds, its section and offset. -/
def firstFail (code : Nat) (l : List (Bool × Nat × Nat)) : Option Fail :=
  (l.find? (fun c => !c.1)).map (fun c => (code, c.2.1, c.2.2))

/-- The first of two checks that fails. -/
def orFail (x : Option Fail) (f : Unit → Option Fail) : Option Fail :=
  match x with | some a => some a | none => f ()

/-- The first set bit of a reserved field of a section, as the field's offset (R10). -/
def resv (b : List Byte) (s : Sec) (o n : Nat) : Bool × Nat × Nat := (allZero (cut b o n), s.ix, s.off + o)

/-- Bits of one byte that are reserved. -/
def resvBits (b : List Byte) (s : Sec) (o mask : Nat) : Bool × Nat × Nat := (leAt b o 1 &&& mask == 0, s.ix, s.off + o)

/-- The length a section's type defines (R45, R47 to R57); none for a type that is not known. -/
def secLength (s : Sec) : Option Nat :=
  match s.type with
  | 1 => some 64 | 2 => some 128 | 3 => some 4096 | 4 => some 1024 | 5 => some 8384 | 6 => some 128
  | 7 => some (16 + 16 * leAt s.bytes 0 2)
  | 8 => some 16
  | 9 =>
    let os := constInsts s.bytes
    some (match os.getLast? with | some o => o + 8 + 16 * leAt s.bytes (o + 1) 1 | none => 0x190)
  | _ => none

/-- Step 13: the directory (R45). The end of the section before bounds the next one's offset and the zero fill. -/
def checkDirectory (b : List Byte) (sig : Nat) (l : List Sec) : Option Fail :=
  let ends := (0x100 + 16 * l.length) :: l.map (fun s => s.off + s.len)
  orFail (firstFail 0x0D ((l.zip ends).flatMap (fun x =>
    let s := x.1
    let e := 0x100 + 16 * s.ix
    [(s.version == 1, s.ix, e + 2), (s.off % 64 == 0 && decide (x.2 ≤ s.off), s.ix, e + 4),
     (decide (s.off + s.len ≤ sig) && (match secLength s with | some n => s.len == n | none => true), s.ix, e + 8),
     (allZero (cut b x.2 (s.off - x.2)), s.ix, x.2)]))) (fun _ =>
    let z := ends.getLastD 0
    firstFail 0x0D [(allZero (cut b z (sig - z)), l.length - 1, z)])

/-- Step 14: the section set (R46). A missing section is reported at SECTION_COUNT, a repeated or forbidden one at its
entry. -/
def checkSet (kind target : Nat) (l : List Sec) : Option Fail :=
  let at_ := fun (s : Sec) => (s.ix, 0x100 + 16 * s.ix)
  let cc := leAt (secBytes l 1 0xFF) 0 1
  let want : List (Nat × Nat) :=
    if kind = 1 then [(9, target), (7, target), (8, target)]
    else ((List.range 8).map (fun t => (t + 1, 0xFF)))
      ++ (if 1 ≤ cc ∧ cc ≤ 64 then (List.range cc).flatMap (fun c => [(9, c), (7, c), (8, c)]) else [])
  let once := fun (s : Sec) => !((l.take s.ix).any (fun x => x.type == s.type && x.tag == s.tag))
  firstFail 0x0E ((l.map (fun s => (want.contains (s.type, s.tag) && once s, at_ s)))
    ++ [(want.all (fun w => (secBy l w.1 w.2).isSome), 0xFF, 0x0E), (kind == 1 || (decide (1 ≤ cc) && decide (cc ≤ 64)), 0xFF, 0x0E)])

/-- Reserved fields of a section (R47 to R57). -/
def resvOf (s : Sec) : List (Bool × Nat × Nat) :=
  let b := s.bytes
  match s.type with
  | 1 => [resv b s 2 2, resv b s 0x0C 52]
  | 2 => [(leAt b 0 8 < 32, s.ix, s.off), resv b s 8 56]
  | 3 => (List.range 1024).map (fun r => resv b s (4 * r + 3) 1)
  | 4 => (List.range 1024).map (fun r => resvBits b s r 0x88)
  | 5 => (List.range 24).flatMap (fun p => [resvBits b s (8 * p + 4) 0xFE, resv b s (8 * p + 5) 3])
  | 6 => [resv b s 2 62]
  | 7 => resv b s 2 14 :: (List.range (leAt b 0 2)).map (fun i => (leAt b (0x12 + 16 * i) 2 < 16, s.ix, s.off + 0x12 + 16 * i))
  | 8 => [resv b s 3 1, resv b s 8 8]
  | _ => [resvBits b s 1 0xFC, resv b s 8 8] ++ (constInsts b).flatMap (fun o =>
      resv b s (o + 5) 3 :: (List.range (leAt b (o + 1) 1)).map (fun j => resv b s (o + 9 + 16 * j) 7))

/-- Step 15: reserved fields of the header, of the directory and of the sections (R10). -/
def checkReserved (b : List Byte) (l : List Sec) : Option Fail :=
  firstFail 0x0F ([(allZero (cut b 0x28 24), 0xFF, 0x28)]
    ++ l.map (fun s => (allZero (cut b (0x10C + 16 * s.ix) 4), s.ix, 0x10C + 16 * s.ix))
    ++ l.flatMap resvOf)

/-- Field ranges of a section (R33, R47 to R57). FB_CONST has none: a value that names no constellation fails the layout check
(R66). -/
def rangesOf (s : Sec) : List (Bool × Nat × Nat) :=
  let b := s.bytes
  let f := fun (o n lo hi : Nat) => (decide (lo ≤ leAt b o n) && decide (leAt b o n ≤ hi), s.ix, s.off + o)
  match s.type with
  | 1 => [f 0 1 1 64, f 1 1 0 8, f 4 4 1250 125000000, f 8 4 12500 12500000]
  | 2 => (List.range 64).map (fun c => f (0x40 + c) 1 0 2)
  | 3 => (List.range 1024).map (fun r => f (4 * r + 2) 1 0 3)
  | 4 => (List.range 1024).map (fun r => (decide (leAt b r 1 % 8 ≤ 4) && decide (leAt b r 1 / 16 % 8 ≤ 4), s.ix, s.off + r))
  | 5 => (List.range 24).flatMap (fun p =>
      if leAt b (8 * p) 2 = 0xFFFF then []
      else [f (8 * p) 2 0 4095, f (8 * p + 2) 1 0 23, (([8, 4, 2] : List Nat).contains (leAt b (8 * p + 3) 1), s.ix, s.off + 8 * p + 3)])
  | 7 => f 0 2 1 4096 :: (List.range (leAt b 0 2)).flatMap (fun i =>
      let o := 0x10 + 16 * i
      [f o 2 0 4095, f (o + 4) 4 0 65536, f (o + 8) 4 (max 1 (leAt b (o + 4) 4)) 65536, f (o + 12) 4 1250 4294967295])
  | 8 => [f 0 2 (if s.tag = 0xFF then 300 else 10) 2000, f 2 1 0 3,
      (leAt b 4 4 == 0 || (s.tag != 0xFF && decide (125 ≤ leAt b 4 4) && decide (leAt b 4 4 ≤ 125000000)), s.ix, s.off + 4)]
  | 9 => [f 0 1 s.tag s.tag, f 2 2 1 1024, f 4 1 0 16, (decide (leAt b 5 1 ≤ 8) || leAt b 5 1 == 0xFF, s.ix, s.off + 5)]
      ++ (constInsts b).zipIdx.flatMap (fun oi =>
        let o := oi.1
        [f o 1 oi.2 oi.2, f (o + 1) 1 1 16, f (o + 2) 1 1 64,
         (leAt b (o + 3) 1 != 0xFF || leAt b (o + 4) 1 == 0, s.ix, s.off + o + 4)]
        ++ (List.range (leAt b (o + 1) 1)).map (fun j => f (o + 8 + 16 * j) 1 0 15))
  | _ => []

/-- Step 16. -/
def checkRanges (kind target : Nat) (l : List Sec) : Option Fail :=
  firstFail 0x10 ((if kind = 0 then target == 0xFF else decide (target < 64), 0xFF, 0x0B) :: l.flatMap rangesOf)

/-- The tiles of a replica mask on its die. -/
def shardTiles (x : Shard) : Nat := x.replicas * 2 ^ (64 * x.die)

/-- The constellations whose sections an image holds, with their CONSTELLATION section. -/
def ownConsts (ch : Chart) (l : List Sec) : List (Constel × Sec) :=
  ch.consts.filterMap (fun k => (secBy l 9 k.id).map (fun s => (k, s)))

/-- Step 17: disjoint tiles and retired tiles (R58). The later of two constellations of an image is at fault. -/
def checkTiles (ch : Chart) (l : List Sec) : Option Fail :=
  firstFail 0x11 ((ownConsts ch l).flatMap (fun (k, s) =>
    let other := ch.consts.foldl (fun m x => if x.id < k.id ∨ (x.id > k.id ∧ (secBy l 9 x.id).isNone) then m ||| x.tiles ||| x.retired else m) 0
    [(k.tiles &&& other == 0, s.ix, s.off + 0x10), (k.retired &&& (other ||| k.tiles) == 0, s.ix, s.off + 0x90)]))

/-- The fallback of instance i of constellation c obeys R58. -/
def fallbackOk (ch : Chart) (c i : Nat) (m : ModelCopy) : Bool :=
  m.fbConst == 0xFF ||
  (match ch.consts.find? (fun x => x.id == m.fbConst) with
   | none => false
   | some k =>
     match k.copies[m.fbCopy]? with
     | none => false
     | some o => !(m.fbConst == c && m.fbCopy == i) && o.shards.length == m.shards.length
         && m.shards.all (fun a => o.shards.all (fun b => a.die != b.die)))

/-- Step 18: capacity, shards, replicas, fallback (R58, R66). -/
def checkLayout (ch : Chart) (l : List Sec) : Option Fail :=
  let all := ch.consts.flatMap (fun k => k.copies.zipIdx.flatMap (fun mi => mi.1.shards.zipIdx.map (fun xj => (k.id, mi.2, xj.2, xj.1))))
  orFail (firstFail 0x12 ((ownConsts ch l).flatMap (fun (k, s) =>
    (decide (popc 1024 k.tiles ≥ k.minTiles), s.ix, s.off + 2) ::
    (k.copies.zip (constInsts s.bytes)).zipIdx.flatMap (fun x =>
      let m := x.1.1
      let o := s.off + x.1.2
      (m.shards.zipIdx.flatMap (fun y =>
        let t := shardTiles y.1
        let clash := all.any (fun z => (z.1, z.2.1, z.2.2.1) != (k.id, x.2, y.2)
          && (decide (z.1 < k.id) || (z.1 == k.id && (decide (z.2.1 < x.2) || (z.2.1 == x.2 && decide (z.2.2.1 < y.2))))
              || (secBy l 9 z.1).isNone) && shardTiles z.2.2.2 &&& t != 0)
        [(!((m.shards.take y.2).any (fun z => z.die == y.1.die)), s.ix, o + 8 + 16 * y.2),
         (t &&& k.tiles == t && !clash && decide (popc 64 y.1.replicas ≥ m.minReplicas), s.ix, o + 16 + 16 * y.2)]))
      ++ [(fallbackOk ch k.id x.2 m, s.ix, o + 3)])))) (fun _ =>
    firstFail 0x12 (ch.consts.flatMap (fun k =>
      match l.find? (fun s => s.type == 9) with
      | some s => if (secBy l 9 k.id).isSome then [] else
          k.copies.zipIdx.map (fun mi => (mi.1.fbConst != s.tag || fallbackOk ch k.id mi.2 mi.1, s.ix, s.off))
      | none => [])))

/-- Regions homed on die d, in shares of 1/16 GiB, among the first n regions (R49). -/
def shares (ch : Chart) (d n : Nat) : Nat :=
  (ch.interleave.take n).foldl (fun a e => if e.1.testBit d then a + 16 / popc 16 e.1 else a) 0

/-- Step 19: INTERLEAVE and regions (R49, R58). -/
def checkMemory (ch : Chart) (l : List Sec) : Option Fail :=
  orFail (match secBy l 3 0xFF with
   | none => none
   | some s => firstFail 0x13 (ch.interleave.zipIdx.map (fun er =>
       let e := er.1
       ((if e.2 = 0 then e.1 == 0 else ([1, 2, 4, 8, 16] : List Nat).contains (popc 16 e.1))
          && (bitsOf 16 e.1).all (fun d => decide (shares ch d (er.2 + 1) ≤ 1024)), s.ix, s.off + 4 * er.2)))) (fun _ =>
    firstFail 0x13 ((ownConsts ch l).map (fun (k, s) =>
      let other := ch.consts.foldl (fun m x => if x.id < k.id ∨ (x.id > k.id ∧ (secBy l 9 x.id).isNone) then m ||| x.regions else m) 0
      (k.regions &&& other == 0 && (List.range 1024).all (fun r => !k.regions.testBit r || (ch.interleave.getD r (0, 0)).2 != 0),
       s.ix, s.off + 0x110))))

/-- Following primary egresses from die i reaches die t within n hops, visiting no die twice (R51). -/
def routeReaches (route : List Nat) (t : Nat) : Nat → Nat → List Nat → Bool
  | 0, i, _ => i == t
  | n + 1, i, seen =>
    i == t ||
    (match bridgeTo i (route.getD (32 * i + t) 0 % 8) with
     | none => false
     | some j => !seen.contains j && routeReaches route t n j (j :: seen))

/-- Step 20 (R51). -/
def checkRoute (ch : Chart) (l : List Sec) : Option Fail :=
  match secBy l 4 0xFF with
  | none => none
  | some s =>
    let pairs := (List.range 32).flatMap (fun i => (List.range 32).map (fun t => (i, t)))
    firstFail 0x14 ((pairs.map (fun (i, t) =>
      let r := ch.route.getD (32 * i + t) 0
      ((if i = t then r % 8 == 0 && r / 16 == 0 else (bridgeTo i (r % 8)).isSome && (bridgeTo i (r / 16)).isSome), s.ix, s.off + 32 * i + t)))
      ++ pairs.map (fun (i, t) => (routeReaches ch.route t 12 i [i], s.ix, s.off + 32 * i + t)))

/-- Step 21 (R52). -/
def checkLinkport (ch : Chart) (l : List Sec) : Option Fail :=
  match secBy l 5 0xFF with
  | none => none
  | some s =>
    let used := fun p => p == 0xFF || (decide (p < 24) && ((ch.ports.getD p { neighbour := 0xFFFF, nport := 0, minWidth := 0, flags := 0 }).neighbour != 0xFFFF))
    firstFail 0x15 (ch.routes.flatMap (fun x =>
      let o := s.off + 0xC0 + 2 * x.1
      [(used x.2.1 && (x.1 != ch.moduleId || x.2.1 == 0xFF), s.ix, o), (used x.2.2 && (x.1 != ch.moduleId || x.2.2 == 0xFF), s.ix, o + 1)]))

/-- Step 22 (R55, R66). -/
def checkQueues (ch : Chart) (base : Option Chart) (target : Nat) (l : List Sec) : Option Fail :=
  let kept : List QueueEnt := match base with
    | none => []
    | some c => c.queues ++ (c.consts.filter (fun k => k.id != target)).flatMap (·.queues)
  let ents := l.flatMap (fun s => if s.type = 7 then (queueEnts s.bytes).zipIdx.map (fun ei => (s, ei.1, ei.2)) else [])
  let _ := ch
  firstFail 0x16 (ents.zipIdx.flatMap (fun x =>
    let (s, e, i) := x.1
    let o := s.off + 0x10 + 16 * i
    let before := kept ++ (ents.take x.2).map (fun y => y.2.1)
    [(s.tag != 0xFF || leAt s.bytes 0 2 == 1, s.ix, s.off),
     ((s.tag != 0xFF || e.queue == 0) && !(before.any (fun b => b.queue == e.queue)), s.ix, o),
     ((if s.tag = 0xFF then e.flags == 1 else e.flags % 2 == 0), s.ix, o + 2),
     (decide (before.foldl (fun n b => n + b.reserve) e.reserve ≤ 65536), s.ix, o + 4)]))

/-- Step 23 (R56). -/
def checkEnvelope (ch : Chart) (l : List Sec) : Option Fail :=
  firstFail 0x17 (l.flatMap (fun s =>
    if s.type = 8 ∧ s.tag ≠ 0xFF then [(decide (leAt s.bytes 2 1 ≥ ch.env.topOp), s.ix, s.off + 2)] else []))

/-- Steps 24 and 25 (R53, R48). -/
def checkMeterPermit (ch : Chart) (l : List Sec) : Option Fail :=
  orFail (match secBy l 6 0xFF with
   | none => none
   | some s => firstFail 0x18 ((ch.ruleVersion == 1, s.ix, s.off) :: ch.channels.zipIdx.map (fun x =>
       ((if x.2 < ch.constCount then decide (1 ≤ x.1) && decide (x.1 ≤ 63) else x.1 == 0), s.ix, s.off + 0x40 + x.2)))) (fun _ =>
    match secBy l 2 0xFF with
    | none => none
    | some s => firstFail 0x19 (ch.debugMax.zipIdx.map (fun x => (decide (x.2 < ch.constCount) || x.1 == 0, s.ix, s.off + 0x40 + x.2))))

/-- Step 26 (R66). -/
def checkAmend (base : Chart) (ch : Chart) (target : Nat) (l : List Sec) : Option Fail :=
  match base.consts.find? (fun k => k.id == target), ch.consts.find? (fun k => k.id == target), secBy l 9 target with
  | some o, some n, some s =>
    let other := base.consts.foldl (fun m x => if x.id = target then m else m ||| x.tiles ||| x.retired) 0
    firstFail 0x1A ([(n.regions == o.regions, s.ix, s.off + 0x110), (n.tiles &&& other == 0, s.ix, s.off + 0x10),
      (n.retired &&& other == 0 && n.retired &&& o.retired == o.retired, s.ix, s.off + 0x90)]
      ++ (n.copies.zip (constInsts s.bytes)).map (fun x =>
        (x.1.fbConst == 0xFF || base.consts.any (fun k => k.id == x.1.fbConst), s.ix, s.off + x.2 + 3)))
  | _, _, _ => none

/-- Step 27: fenced domains (R58); `fz` tells the fenced ones (R437, R479). -/
def checkFenced (ch : Chart) (kind : Nat) (fz : Nat → Bool) (l : List Sec) : Option Fail :=
  let bad := (List.range 16).filter fz
  let tiles := bad.foldl (fun m d => m ||| (2 ^ 64 - 1) * 2 ^ (64 * d)) 0
  let home := fun r => bad.any (fun d => (ch.interleave.getD r (0, 0)).1.testBit d)
  orFail (firstFail 0x1B ((ownConsts ch l).flatMap (fun (k, s) =>
    (k.tiles &&& tiles == 0, s.ix, s.off + 0x10) ::
    ((k.copies.zip (constInsts s.bytes)).flatMap (fun x => x.1.shards.zipIdx.map (fun y =>
      (shardTiles y.1 &&& tiles == 0, s.ix, s.off + x.2 + 16 + 16 * y.2)))
     ++ (if kind = 1 then [] else [((List.range 1024).all (fun r => !(k.regions.testBit r && home r)), s.ix, s.off + 0x110)]))))) (fun _ =>
    match secBy l 3 0xFF with
    | some s => firstFail 0x1B ((List.range 1024).map (fun r => (!home r, s.ix, s.off + 4 * r)))
    | none => none)

/-! The whole validation (R61, R62) -/

/-- The key of a module: a provisioned owner key, else the vendor key (R61 step 5). -/
def ownerKeyOk (s : State) (h : List Byte) : Bool :=
  let ok := cut h 0x80 64
  match s.sec.lifecycle with
  | 0 => ok == cut h 0x40 64
  | 3 => true
  | _ => some ok == s.sec.ownerKey

/-- The highest serial held by a Chart slot (R62). -/
def slotSerial (x : ChSlot) : Nat :=
  (x.base :: x.chain).foldl (fun m b => if b.isEmpty then m else max m (leAt (cut b 0 256) 0x18 8)) 0

/-- Steps 1 to 12 (R61, R62): `start` for a stored image at start-up, `base` the Chart it is checked against, `drained`
the test of R64. -/
def checkHeader (s : State) (b : List Byte) (base : Option Chart) (start drained : Bool) : Option Fail :=
  let h := cut b 0 256
  let n := leAt h 0x0E 2
  let sig := leAt h 0x14 4
  let kind := leAt h 6 2
  let no := fun (code : Nat) => some (code, 0xFF, 0)
  let baseSerial := (base.map (·.serial)).getD 0
  let floor := match base with | some c => c.serial | none => s.ch.slots.foldl (fun m x => max m (slotSerial x)) 0
  if leAt h 0 4 ≠ 0x4843584C then no 0x01
  else if b.length < 256 ∨ leAt h 0x10 4 ≠ b.length ∨ b.length > 4194304 ∨ b.length ≠ sig + 59584 ∨ sig % 64 ≠ 0 ∨ n < 1 ∨ n > 256
      ∨ 0x100 + 16 * n > sig then no 0x02
  else if leAt h 4 2 ≠ 1 ∨ leAt h 0x0A 1 ≠ 1 ∨ kind > 1 then no 0x03
  else if leAt h 8 2 > 1 then no 0x04
  else if cut h 0x40 64 ≠ Config.vendorKey ∨ !ownerKeyOk s h then no 0x05
  else if Config.shake256 (cut b 0 0xC0 ++ cut b 0x100 (sig - 0x100)) ≠ cut h 0xC0 64 then no 0x06
  else if !Config.slhVerify (cut h 0x40 64) h (cut b sig 29792) then no 0x07
  else if !Config.slhVerify (cut h 0x80 64) h (cut b (sig + 29792) 29792) then no 0x08
  else if s.sec.lifecycle = 3 then no 0x09
  else if (kind = 0 ∧ (leAt h 0x20 8 ≠ 0 ∨ (!start ∧ leAt h 0x18 8 ≤ floor)))
      ∨ (kind = 1 ∧ (leAt h 0x20 8 ≠ baseSerial ∨ leAt h 0x18 8 ≠ leAt h 0x20 8 + 1)) then no 0x0A
  else if leAt h 0x0C 2 ≥ 4096 ∨ (kind = 1 ∧ (base.any (fun c => c.moduleId != leAt h 0x0C 2))) then no 0x0B
  else if (kind = 0 ∧ !start ∧ !drained)
      ∨ (kind = 1 ∧ !(base.any (fun c => c.consts.any (fun k => k.id == leAt h 0x0B 1)))) then no 0x0C
  else none

/-- Steps 13 to 27 (R61, R66). -/
def checkBody (b : List Byte) (base : Option Chart) (fz : Nat → Bool) : Option Fail :=
  let h := cut b 0 256
  let kind := leAt h 6 2
  let target := leAt h 0x0B 1
  let l := secsOf b
  let o := orFail
  o (checkDirectory b (leAt h 0x14 4) l) fun _ =>
  o (checkSet kind target l) fun _ =>
  o (checkReserved b l) fun _ =>
  o (checkRanges kind target l) fun _ =>
    let ch := match kind, base with
      | 1, some c => amendedChart c b
      | _, _ => chartOf b
    let base := if kind = 1 then base else none
    o (checkTiles ch l) fun _ =>
    o (checkLayout ch l) fun _ =>
    o (checkMemory ch l) fun _ =>
    o (checkRoute ch l) fun _ =>
    o (checkLinkport ch l) fun _ =>
    o (checkQueues ch base target l) fun _ =>
    o (checkEnvelope ch l) fun _ =>
    o (checkMeterPermit ch l) fun _ =>
    o (match base with | some c => checkAmend c ch target l | none => none) fun _ =>
    checkFenced ch kind fz l

/-- The module is drained (R64): no queue but queue 0 holds a fetched or unfetched descriptor, and no launch is
resident. -/
def drained (s : State) : Bool :=
  s.qf.queues.all (fun p => p.1 == 0 || (p.2.held == 0 && p.2.head == p.2.tail))
    && s.tiles.all (fun p => !(p.2.launch.isSome && p.2.launchEnd.isNone))

/-- A full load would release the fence of die d (R437 Table 7): every stack die below 82 °C for THERMAL, a passed test
for FATAL. ORPHAN is not released by a load. -/
def releasable (s : State) (d : Nat) : Bool :=
  let D := getD s d
  match fenceCause s d with
  | 1 => (List.range 10).all (fun i => decide ((if i < 8 then wfld D.dcTemp0 (8 * i + 7) (8 * i) else wfld D.dcTemp1 (8 * (i - 8) + 7) (8 * (i - 8))) < 82))
  | 2 => s.rec_.passed.testBit d
  | _ => false

/-- Validation of an image (R61): the first failure. -/
def validate (s : State) (b : List Byte) (base : Option Chart) (start : Bool) : Option Fail :=
  orFail (checkHeader s b base start (drained s)) (fun _ =>
    checkBody b base (fun d => fenced s d && !(leAt (cut b 0 256) 6 2 == 0 && !start && releasable s d)))

end Machine
end Sys2Proof
end

