-- ==== Sys2Proof/Machine/RtTasks.lean ====
section
/-!
DEFINITION. The tasks of the service runtime: the launches that hold them on tiles, the coordinator and the workers (R339),
and what a tile that leaves does with them (R98, R357).
-/

namespace Sys2Proof
namespace Machine

/-- A tile that can run: neither retired, fenced nor held. -/
def tileServes (s : State) (t : Nat) : Bool :=
  let T := getT s t
  !T.retired && !T.held && T.tstate != .t3 && !fenced s (t / 64)

/-- The queue number that marks the launch of the runtime, which no queue makes; its descriptor number is the
constellation's. -/
def rtQueue : Nat := 4096

/-- The runtime's launch of constellation id is resident on a tile. -/
def rtResident (T : Tile) (id : Nat) : Bool := T.launch == some (rtQueue, id) && T.launchEnd.isNone

/-- The launch resident on a tile is the runtime's. -/
def rtTile (T : Tile) : Bool := T.launchEnd.isNone && (match T.launch with | some (q, _) => q == rtQueue | none => false)

/-- Context c of a tile runs a task of the runtime of constellation id, and no debug session has halted it. -/
def rtRuns (T : Tile) (id c : Nat) : Bool := rtResident T id && T.ctx[cix c].run == .runtime && T.ctx[cix c].dbg == 0

/-- The tiles of a constellation's instances. -/
def instTiles (k : Constel) : Nat := k.copies.foldl (fun m i => i.shards.foldl (fun m x => m ||| shardTiles x) m) 0

/-- The coordinator's tile and context of a constellation: the lowest tile outside every instance; else context 7 of the
lowest tile that can run. A tile that leaves is passed over: the coordinator migrates from it (R66, R339). -/
def coordPlace (s : State) (k : Constel) : Option (Nat × Nat) :=
  let stays := fun t => !(getT s t).chartLeave
  match (bitsOf 1024 k.tiles).find? (fun t => !(instTiles k).testBit t && stays t) with
  | some t => some (t, 0)
  | none => ((bitsOf 1024 k.tiles).find? (fun t => tileServes s t && stays t)).map (fun t => (t, 7))

/-- The coordinator's tile of a constellation. -/
def coordTile (s : State) (k : Constel) : Option Nat := (coordPlace s k).map (·.1)

/-- A context of a tile as the runtime's launch begins it. -/
def rtCtx (c : Nat) (T : Tile) : Tile := tileSetC T (cix c) { Ctx.reset with run := .runtime }

/-- Place contexts of the runtime of constellation id on a tile: on a tile without a resident launch a launch of its own
begins, on one that has the runtime's they join it; a tile with another launch, or one that cannot run, is passed over
(R327, R339). -/
def rtPlace (s : State) (id t : Nat) (cs : List Nat) : State :=
  let T := getT s t
  if !tileServes s t ∨ T.chartLeave then s
  else if rtResident T id then
    let new := cs.filter (fun c => T.ctx[cix c].run == .idle)
    if new.isEmpty then s else wakeTile (setT s t (new.foldl (fun T c => rtCtx c T) T)) t
  else if T.launch.isSome ∧ T.launchEnd.isNone then s
  else
    let occ := wset Config.runtimeOcc 3 0 (cs.foldl (fun m c => max m (c + 1)) 0)
    let L := min 0x200000 (wfld occ 35 32 * 0x40000)
    let g := s.draws
    let T := { T with
      store := stScramble T.store g ((List.range 8).filter (fun b => b ≥ min T.lsBytes L / 0x40000))
      vr := stScramble T.vr g (List.range 8)
      tc := [], lsBytes := L, occ := occ, vregs := 0, det := false, unfenced := []
      launch := some (rtQueue, id), launchEnd := none, endCause := 0, endEpc := 0, launchEvent := s.qf.events
      ctx := Vector.ofFn (fun _ => Ctx.reset) }
    wakeTile (setT { s with draws := g + 1 } t (cs.foldl (fun T c => rtCtx c T) T)) t

/-- The coordinators that may write another constellation's tile pages: those that hold a standby copy for it (R331). -/
def setCoords (s : State) : State :=
  modF s (fun f => { f with coords := s.rt.models.filterMap (fun m => match m.standby with
    | some (c, _) => if c = m.const then none else ((constById s c).bind (coordTile s)).map (fun t => (m.const, t))
    | none => none) })

/-- Place the coordinator of a constellation where it does not run (R339). -/
def placeCoord (s : State) (k : Constel) : State :=
  match coordPlace s k with
  | some (t, c) => rtPlace s k.id t [c]
  | none => s

/-- Place the tasks of a constellation's runtime: workers in contexts 0 to 6 of every replica tile, and the coordinator
(R339). -/
def placeTasks (s : State) (k : Constel) : State :=
  placeCoord ((bitsOf 1024 (instTiles k &&& k.tiles)).foldl (fun s t => rtPlace s k.id t (List.range 7)) s) k

/-- The runtime's contexts of a tile halt, and its launch ends there (R328). -/
def rtHalt (s : State) (t : Nat) : State :=
  modT s t (fun T => { T with
    launch := none, launchEnd := none, occ := 0
    ctx := Vector.ofFn (fun i => let C := T.ctx[i]; if C.run = .runtime then { C with run := .halted } else C) })

/-- The coordinator of a constellation runs, on a tile that can run. -/
def rtOn (s : State) (id : Nat) : Bool :=
  s.pw.mstate != 2 && (constById s id).any (fun k =>
    (coordPlace s k).any (fun p => tileServes s p.1 && rtRuns (getT s p.1) id p.2))

/-- The constellation whose coordinator admits and runs a request: that of its copy (R359). -/
def reqHost (s : State) (q : Req) : Nat :=
  if q.moved then ((s.rt.models.find? (fun m => m.const == q.const && m.num == q.model)).bind (·.standby)).elim q.const (·.1)
  else q.const

/-- The runtime's tasks on a tile have work: its constellation has a request that runs or waits. -/
def rtBusy (s : State) (t : Nat) : Bool :=
  rtTile (getT s t) && s.rt.reqs.any (fun q => (getT s t).launch == some (rtQueue, reqHost s q)
    && (match q.phase with | .waiting => true | .running _ => true | _ => false))

/-- An instance of a constellation (R57). -/
def copyOf (s : State) (id inst : Nat) : Option ModelCopy := (constById s id).bind (fun k => k.copies[inst]?)

/-- An instance serves (R59). -/
def copyServes (s : State) (id inst : Nat) : Bool :=
  match copyOf s id inst with
  | none => false
  | some i => i.shards.all (fun x =>
      decide (popc 64 (maskOf 64 (fun b => x.replicas.testBit b && tileServes s (64 * x.die + b))) ≥ i.minReplicas))

/-- The tile that works for a shard of constellation id: the lowest replica tile that can run and holds the runtime's tasks.
One that leaves holds them no more (R357). -/
def shardTile (s : State) (id : Nat) (x : Shard) : Option Nat :=
  (bitsOf 1024 (shardTiles x)).find? (fun t => tileServes s t && (List.range 7).any (rtRuns (getT s t) id))

end Machine
end Sys2Proof
end

