-- ==== Sys2Proof/Machine/Letterbox.lean ====
section
/-!
DEFINITION. The Letterbox: registration, receipt rings, receipts, queue words, global block, heartbeat (R335, R336).
-/

namespace Sys2Proof
namespace Machine

/-- Letterbox bus address. -/
def lbBase (s : State) : Nat := wfld s.qf.lb 63 12 * 4096

/-- A change that the global block shows (R336). -/
def globalDirty (s : State) : State := modF s (fun f => { f with gdirty := true })

/-- Some queue is enabled (R335). -/
def anyEnabled (s : State) : Bool := s.qf.queues.any (fun p => p.2.state != 0)

/-- LETTERBOX_REGISTER: a write of QF_LB, ignored while any queue is enabled (R335). -/
def execLetterboxRegister (v : Written (BitVec 64)) (s : State) : Host.Outcome State Fault Refusal :=
  .next (qfWrite v.by_ s fun s => if anyEnabled s then s
    else globalDirty (modF s (fun f => { f with lb := toW (wfld v.val 63 12 * 4096 + wfld v.val 0 0) })))

/-- RRING_CONFIG: a write of QF_RRING(r) (R335). -/
def execRringConfig (r : Fin 64) (v : Written (BitVec 64)) (s : State) : Host.Outcome State Fault Refusal :=
  .next (qfWrite v.by_ s fun s => modF s (fun f => { f with
    rring := f.rring.set r.val (toW (wfld v.val 31 12 * 4096 + wfld v.val 4 0)) }))

/-- Entries, first and last byte of receipt ring r in the Letterbox. -/
def rringEntries (s : State) (r : Nat) : Nat := 2 ^ (wfld (s.qf.rring.getD r 0) 3 0 + 4)
def rringLo (s : State) (r : Nat) : Nat := wfld (s.qf.rring.getD r 0) 31 12 * 4096
def rringHi (s : State) (r : Nat) : Nat := rringLo s r + 64 * rringEntries s r

/-- QF_RRING(r).EN as it reads: written 1, wholly in the Letterbox from 0x2_1000 on, and clear of every other enabled
ring (R335). -/
def rringEn (s : State) (r : Nat) : Bool :=
  let en := fun i => (s.qf.rring.getD i 0).toNat.testBit 4
  en r && decide (rringLo s r ≥ 0x21000) && decide (rringHi s r ≤ wfld s.qf.lbSize 19 0 * 4096)
    && (List.range 64).all (fun i => i == r || !en i || decide (rringHi s i ≤ rringLo s r) || decide (rringHi s r ≤ rringLo s i))

/-- RRING_CONS_WRITE: QF_RRING_CONS(r) (R335, R336). -/
def execRringConsWrite (r : Fin 64) (v : Written (BitVec 32)) (s : State) : Host.Outcome State Fault Refusal :=
  .next (qfWrite v.by_ s fun s => modF s (fun f => { f with rcons := f.rcons.set r.val v.val.toNat }))

/-- ERR_CONS_WRITE: QF_ERR_CONS (R335, R434). -/
def execErrConsWrite (v : Written (BitVec 32)) (s : State) : Host.Outcome State Fault Refusal :=
  .next (qfWrite v.by_ s fun s => modF s (fun f => { f with errCons := v.val.toNat }))

/-- The Letterbox takes posted writes (R301, R336, R431). -/
def mayPost (s : State) : Bool := lbEnabled s && canSend s

/-- The receipt ring of a queue (QF_QCFG.RRING). -/
def queueRring (s : State) (q : Nat) : Nat := wfld (getQ s q).qcfg 13 8

/-- A receipt has left the list: its slots are free, a post advances DONE, and a request of the runtime whose FINAL receipt
it is leaves the request table (R318, R331, R344). -/
def receiptGone (s : State) (x : Rcpt) : State :=
  let Q := getQ s x.q
  let s := match x.req with
    | some i => { s with rt := { s.rt with reqs := s.rt.reqs.filter (fun r => r.id != i) } }
    | none => s
  setQ s x.q { Q with held := Q.held - x.slots, posts := if x.last then (Q.posts + 1) % 2 ^ 32 else Q.posts }

/-- RECEIPT_POST: the oldest receipt for ring r is posted where the ring is enabled and has room: bytes 0x08 on first,
then its SEQ (R336). A refused post has no entry and only advances DONE (R331). -/
def execReceiptPost (r : Fin 64) (s : State) : Host.Outcome State Fault Refusal :=
  .next (
    match s.qf.receipts.findIdx? (fun x => queueRring s x.q == r.val) with
    | none => s
    | some k =>
      match s.qf.receipts[k]? with
      | none => s
      | some x =>
        let gone := receiptGone (modF s (fun f => { f with receipts := f.receipts.eraseIdx k })) x
        if x.raw = some [] then gone
        else
          let n := s.qf.rposts.getD r.val 0
          if !mayPost s ∨ !rringEn s r.val ∨ diff32 n (s.qf.rcons.getD r.val 0) ≥ rringEntries s r.val then defer s (.receipt r.val)
          else
            let a := lbBase s + rringLo s r.val + 64 * (n % rringEntries s r.val)
            let s := postWrite gone (a + 8) (receiptBytes x)
            let s := postWrite s a (toLE 8 (n + 1))
            modF s (fun f => { f with rposts := f.rposts.set r.val (n + 1) }))

/-- QF_QSTAT of a queue; `pending` as in the register, absent from the queue word (R320, R336). -/
def queueStat (x : Queue) (pending : Bool) : Word :=
  toW (x.held % 2 ^ 17 * 2 ^ 47 + x.reason % 128 * 2 ^ 40 + b2n pending * 2 ^ 39 + x.state % 8 * 2 ^ 36 + x.head % 2 ^ 32)

/-- QUEUE_WORD_POST: the two words of a queue are posted after a change (R336). -/
def execQueueWordPost (q : QueueId) (s : State) : Host.Outcome State Fault Refusal :=
  .next (
    let x := getQ s q.val
    if !x.dirty then s
    else if !mayPost s then defer s (.words q.val)
    else
      let a := lbBase s + 0x1000 + 16 * q.val
      let s := postWrite s a (toLE 8 (queueStat x false).toNat)
      let s := postWrite s (a + 8) (toLE 8 (x.done % 2 ^ 32 + x.guilty % 65536 * 2 ^ 32))
      modF s (fun f => { f with queues := mset f.queues q.val { x with dirty := false } }))

/-- The fields of the global block from 0x08 to 0x2F (R336). -/
def globalBytes (s : State) : List Byte :=
  toLE 1 s.hx.health ++ toLE 1 s.hx.activeLs ++ List.replicate 6 0#8 ++ toLE 8 ((s.chart.map (·.serial)).getD 0)
    ++ toLE 8 s.qf.heartbeat ++ toLE 8 s.qf.errPosts ++ toLE 8 s.qf.errLost

/-- GLOBAL_BLOCK_POST: LOCK odd, the fields, LOCK the next even value (R336). -/
def execGlobalBlockPost (s : State) : Host.Outcome State Fault Refusal :=
  .next (
    if !s.qf.gdirty then s
    else if !mayPost s then defer s .global
    else
      let a := lbBase s
      let s1 := postWrite s a (toLE 8 (s.qf.lock + 1))
      let s2 := postWrite s1 (a + 8) (globalBytes s)
      let s3 := postWrite s2 a (toLE 8 (s.qf.lock + 2))
      modF s3 (fun f => { f with lock := f.lock + 2, gdirty := false }))

/-- LB_HEARTBEAT: HEARTBEAT rises by 1 every 12,500 ticks while the Letterbox is registered; it
stops at the loss of the last Lodestar (R336, R338, R440). -/
def execLbHeartbeat (s : State) : Host.Outcome State Fault Refusal :=
  .next (
    if !lbEnabled s ∨ s.now < s.qf.hbMark + 12500 ∨ s.hx.stopped ∨ !lsAlive s then s
    else globalDirty (modF s (fun f => { f with heartbeat := f.heartbeat + 1, hbMark := s.now })))

/-! Reset of the front end by FLR, hot reset or PERST# (R338, R451) -/

/-- Records lost to overflow, as the active Lodestar has read them (R435). -/
def lostSum (s : State) : Nat := s.rec_.lostRead.foldl (fun n p => n + p.2) 0

/-- Every queue is reset at once without posting, every fence returns to 0, and the Letterbox, receipt rings and posting
counts return to their reset values; error records stay in their dies (R338). An amendment that has committed is
completed. The runtime's tasks and requests are kept; a FINAL receipt that waited at the posting engine is made again (R360,
R451). -/
def queuesClear (s : State) : State :=
  let ts := (s.tiles.filter (fun p => resident p.2 && !rtTile p.2)).map (·.1)
  let s := ts.foldl releaseTile s
  let s := { s with rt := { s.rt with reqs := s.rt.reqs.map (fun (q : Req) => match q.phase with
    | .posting r p => { q with phase := .ended r p }
    | _ => q) } }
  let s := (s.qf.descs.filter (fun d => dtype d == 1 && d.phase == .started)).foldl dropDma s
  let s := { s with tiles := s.tiles.map (fun (p : Nat × Tile) => 
    if rtTile p.2 then (p.1, { p.2 with dmaReqs := 0 }) else (p.1, { p.2 with dmaReqs := 0, launch := none, launchEnd := none })) }
  let lost : TagOwner → TagOwner := fun o => match o with | .dma _ _ k => .dma 4096 0 k | o => o
  let s := { s with link := { s.link with
    dmaDone := []
    ports := s.link.ports.map (fun (p : Nat × Port) => (p.1, { p.2 with tags := p.2.tags.map (fun (t : TagEnt) => { t with owner := lost t.owner }) }))
    engines := s.link.engines.map (fun (p : Nat × Engine) => (p.1, { p.2 with waiting := p.2.waiting.filter (fun (x : Put) => match x.src with | .dma _ _ _ => false | _ => true) })) } }
  let s := { s with hx := { s.hx with hreads := [], treqs := [], cache := [], invals := [], deferred := [] } }
  { s with qf := { QfSt.reset with
    amending := s.qf.amending, coords := s.qf.coords, events := s.qf.events, sweepMark := s.now, hbMark := s.now
    lostBase := lostSum s } }

end Machine
end Sys2Proof
end

