-- ==== Sys2Proof/Machine/HostPort.lean ====
section
/-!
DEFINITION. The PCI Express function: configuration, link and D-states (R297 to R302), BAR accesses (R303 to R308), AER
(R299).
-/

namespace Sys2Proof
namespace Machine

/-- The value of a configuration register (R297, R298, R303): payloads of 512 bytes, FLR, time-out ranges A to D, 14-bit tags
and L0p, No_Soft_Reset 1, queue depth 32, page-aligned requests and global invalidation, a 20-bit PASID. Its bits lie where
PCI Express has them (assumption 12). -/
def cfgRead (s : State) (r : CfgReg) : Nat :=
  let c := s.hx.cfg
  match r with
  | .vendorId => 0x1F3D
  | .deviceId => 0x1024
  | .revisionId => 0xB0
  | .classCode => 0x120000
  | .subsystemVendor => 0x1F3D
  | .subsystemId => if Config.metered then 1 else 2
  | .headerType => 0
  | .interruptPin => 0
  | .interruptLine => 0
  | .command => c.command
  | .bar0 => c.bar0 + 0x4
  | .bar2 => c.bar2 + 0xC
  | .bar4 => c.bar4 + 0xC
  | .deviceCapabilities => 0x10008022
  | .deviceControl => c.devCtl
  | .deviceCapabilities2 => 0x1F
  | .deviceCapabilities3 => 0x0E
  | .linkControl => b2n c.aspmL1 * 2 + b2n c.l0p
  | .linkStatus => s.hx.rate + s.hx.width * 16
  | .pmCapabilities => 3
  | .powerState => 8 + (if s.hx.d3hot then 3 else 0)
  | .serialNumberLow => Config.serial % 2 ^ 32
  | .serialNumberHigh => Config.serial / 2 ^ 32 % 2 ^ 32
  | .atsCapability => 0x60
  | .atsControl => b2n c.ats * 0x8000
  | .pasidCapability => 0x1400
  | .pasidControl => b2n c.pasid
  | .aerCor => c.aerCor
  | .aerUnc => c.aerUnc
  | .aerCorMask => c.aerCorMask
  | .aerUncMask => c.aerUncMask
  | .aerSeverity => c.aerSev
  | .aerHeader k => leAt c.aerHeader (4 * k.val) 4

/-- The port leaves a link state that Link Control no longer permits (R300). -/
def linkPermit (s : State) : State :=
  let h := s.hx
  let out := (h.lstate = .l1 ∧ !h.cfg.aspmL1) ∨ (h.lstate = .l0p ∧ !h.cfg.l0p)
  let wide := h.cfg.l0p = false
  if h.lstate = .down then s
  else
    { s with hx := { h with
      width := if wide then h.maxWidth else h.width
      lstate := if !out then h.lstate else if wide ∨ h.width = h.maxWidth then .l0 else .l0p } }

/-- A write of a configuration register: the header's identity registers are read-only, AER status bits are cleared by
ones, the size bits of a BAR stay zero (R297, R299, R300, R303). -/
def cfgWrite (s : State) (r : CfgReg) (v : Nat) : State :=
  let set := fun (f : PciCfg → PciCfg) => { s with hx := { s.hx with cfg := f s.hx.cfg } }
  match r with
  | .command => set (fun c => { c with command := v % 65536 })
  | .bar0 => set (fun c => { c with bar0 := v % 2 ^ 64 / 0x4000000 * 0x4000000 })
  | .bar2 => set (fun c => { c with bar2 := v % 2 ^ 64 / 0x40000000 * 0x40000000 })
  | .bar4 => set (fun c => { c with bar4 := v % 2 ^ 64 / 0x10000 * 0x10000 })
  | .deviceControl => set (fun c => { c with devCtl := v % 65536 })
  | .linkControl => linkPermit (set (fun c => { c with aspmL1 := v.testBit 1, l0p := v.testBit 0 }))
  | .atsControl => if v.testBit 15 then set (fun c => { c with ats := true }) else s
  | .pasidControl => set (fun c => { c with pasid := v.testBit 0 })
  | .aerCor => set (fun c => { c with aerCor := c.aerCor &&& (2 ^ 32 - 1 - v % 2 ^ 32) })
  | .aerUnc => set (fun c => { c with aerUnc := c.aerUnc &&& (2 ^ 32 - 1 - v % 2 ^ 32) })
  | .aerCorMask => set (fun c => { c with aerCorMask := v % 2 ^ 32 })
  | .aerUncMask => set (fun c => { c with aerUncMask := v % 2 ^ 32 })
  | .aerSeverity => set (fun c => { c with aerSev := v % 2 ^ 32 })
  | _ => s

/-- CONFIG_REQUEST: a configuration read (`w` none) or write, answered with Request Retry Status until the function is
ready (R302). Writes that change a D-state, clear ATS Control Enable or start a Function Level Reset are the commands of
their own rows. -/
def execConfigRequest (r : CfgReg) (w : Option (BitVec 64)) (s : State) : Host.Outcome State Fault Refusal :=
  .next (
    if !s.hx.ready then emit s (.cpl .rrs [])
    else
      let s := traffic s
      match w with
      | none => emit s (.cpl .ok (toLE 8 (cfgRead s r)))
      | some v => emit (cfgWrite s r v.toNat) (.cpl .ok []))

/-- CONFIG_READY: the link has trained to a width and a rate, in Flit mode at 64 GT/s and at lower rates where the partner
supports it, and the function is ready; the Device Readiness Status message is sent once after each PERST# deassertion and
each hot reset (R300, R302). -/
def execConfigReady (l : LinkUp) (s : State) : Host.Outcome State Fault Refusal :=
  .next (
    if s.hx.ready ∨ s.su.hold ∨ s.su.perst ∨ !s.su.mainOk then s
    else
      let s1 := { s with hx := { s.hx with
        ready := true, drsSent := true, lstate := .l0, width := l.width, maxWidth := l.width, lastTraffic := s.now
        rate := l.rate, flit := decide (l.rate = 6) || l.partnerFlit } }
      if s.hx.drsSent then s1 else emit s1 .drs)

/-- BAR0_BAD_ACCESS: a BAR0 access that is not an aligned 4- or 8-byte one: a read completes as Unsupported Request, a
write is discarded; both are counted (R305). In D3hot and before the function is ready nothing is counted (R301). -/
def execBar0BadAccess (read : Bool) (off len : Nat) (s : State) : Host.Outcome State Fault Refusal :=
  .next (
    if (len = 4 ∨ len = 8) ∧ off % len = 0 then s
    else if s.hx.d3hot ∨ !s.hx.ready then (if read then emit s (.cpl .ur []) else s)
    else
      let s := traffic s
      let s := { s with hx := { s.hx with bar0Bad := (s.hx.bar0Bad + 1) % 65536 } }
      if read then emit s (.cpl .ur []) else s)

/-- MIRROR_READ_TIMEOUT: the oldest mirror read that its die has not answered within 2 µs, 25 ticks, returns all ones and
is counted (R304). -/
def execMirrorReadTimeout (s : State) : Host.Outcome State Fault Refusal :=
  .next (
    match s.hx.mirror with
    | (_, n, at_) :: r =>
      if s.now < at_ + 25 then s
      else emit { s with hx := { s.hx with mirror := r, mirrorMiss := (s.hx.mirrorMiss + 1) % 65536 } }
        (.cpl .ok (List.replicate n 0xFF#8))
    | [] => s)

/-- L0P_NARROW to a width, while Link Control permits L0p, after traffic has fitted it for 12,500 ticks, which its sender
sees (R300). -/
def execL0pNarrow (w : Nat) (s : State) : Host.Outcome State Fault Refusal :=
  .next (
    if s.hx.cfg.l0p ∧ (s.hx.lstate = .l0 ∨ s.hx.lstate = .l0p) ∧ (w = 8 ∨ w = 4 ∨ w = 2) ∧ w < s.hx.width then
      { s with hx := { s.hx with lstate := .l0p, width := w } } else s)

/-- L0P_WIDEN: the link returns to its trained width (R300). -/
def execL0pWiden (s : State) : Host.Outcome State Fault Refusal :=
  .next (if s.hx.lstate = .l0p then { s with hx := { s.hx with lstate := .l0, width := s.hx.maxWidth } } else s)

/-- L1_ENTRY after 1,250 idle ticks, while Link Control enables ASPM L1 (R300). -/
def execL1Entry (s : State) : Host.Outcome State Fault Refusal :=
  .next (
    if s.hx.cfg.aspmL1 ∧ (s.hx.lstate = .l0 ∨ s.hx.lstate = .l0p) ∧ s.now ≥ s.hx.lastTraffic + 1250 then
      { s with hx := { s.hx with lstate := .l1 } } else s)

/-- L1_EXIT when traffic must move (R300). -/
def execL1Exit (s : State) : Host.Outcome State Fault Refusal :=
  .next (
    if s.hx.lstate = .l1 then
      { s with hx := { s.hx with lstate := if s.hx.width < s.hx.maxWidth then .l0p else .l0, lastTraffic := s.now } } else s)

/-- PCIE_AER: link or transaction errors are logged in the AER status registers and recorded: corrected where all are
correctable, contained otherwise (R299, R430). The header log keeps the header of the first unmasked uncorrectable one. -/
def execPcieAer (cor : BitVec 32) (unc : AerUnc) (s : State) : Host.Outcome State Fault Refusal :=
  .next (
    if cor = 0 ∧ unc.bits = 0 then s
    else
      let open_ := 2 ^ 32 - 1 - s.hx.cfg.aerUncMask % 2 ^ 32
      let first := unc.bits.toNat &&& open_ != 0 && s.hx.cfg.aerUnc &&& open_ == 0
      let c := { s.hx.cfg with aerHeader := if first then toLE 16 unc.header.toNat else s.hx.cfg.aerHeader
                               aerCor := s.hx.cfg.aerCor ||| cor.toNat, aerUnc := s.hx.cfg.aerUnc ||| unc.bits.toNat }
      postErr { s with hx := { s.hx with cfg := c } } 31 (if unc.bits = 0 then 0 else 2) 0x0704 0 0
        (toLE 4 c.aerCor ++ toLE 4 c.aerUnc))

end Machine
end Sys2Proof
end

