-- ==== Sys2Proof/Machine/ChartApply.lean ====
section
/-!
DEFINITION. Bringing a Chart into force (R65, R66), with what other chapters attach to it: levels (R369), measurement
(R383, R384), debug sessions (R394, R400), HEALTH (R339, R446), the meter's Chart message (R403, R410).
-/

namespace Sys2Proof
namespace Machine

/-! Measurement (R383 to R385) -/

/-- Extend a register of a set: SHAKE256 of its 64 bytes and d. -/
def extendReg (regs : List (List Byte)) (i : Nat) (d : List Byte) : List (List Byte) :=
  lmod regs i (fun r => Config.shake256 (r ++ d))

/-- Extend register i with d; the standby has it with the next heartbeat (R385). -/
def extendMeas (s : State) (i : Nat) (d : List Byte) : State :=
  { s with sec := { s.sec with meas := extendReg s.sec.meas i d, unsent := s.sec.unsent ++ [(i, d)] } }

/-- Extend register 5 with the event record of Table 4 (R384). -/
def measEvent (s : State) (kind level signer mask : Nat) (chal : List Byte) : State :=
  let n := s.sec.events + 1
  let r := toLE 1 kind ++ toLE 1 s.sec.lifecycle ++ toLE 1 level ++ toLE 1 signer ++ toLE 4 0 ++ toLE 8 n ++ toLE 8 mask
    ++ detail32 chal ++ toLE 8 0
  extendMeas { s with sec := { s.sec with events := n } } 5 (Config.shake256 r)

/-! Debug sessions -/

/-- Every halt of an INVASIVE session ends: the contexts go on at their halt points (R394). -/
def endHalts (s : State) : State :=
  { s with tiles := s.tiles.map (fun (p : Nat × Tile) =>
    (p.1, { p.2 with ctx := Vector.ofFn (fun i => { p.2.ctx[i] with dbg := 0 }) })) }

/-- The open session ends (R394). A SCAN session's warm reset is its caller's. -/
def endSession (s : State) : State :=
  if s.sec.session.isNone then s else endHalts { s with sec := { s.sec with session := none } }

/-! HEALTH -/

/-- A SERVING constellation's coordinator has written QF_DLV for each of its queues that accept SERVICE (R339). -/
def servingReady (s : State) : Bool :=
  match s.chart with
  | none => true
  | some c => c.consts.all (fun k => k.flags % 2 == 0 || k.queues.all (fun e => !e.flags.testBit 2 || decide (wfld (getQ s e.queue).dlv 47 8 ≠ 0)))

/-- HEALTH: ORPHANED while HX is orphaned; RUNNING once start-up has completed, no wipe is in progress and the
runtime serves; else STARTING (R339, R389, R440, R446, R447). -/
def healthOf (s : State) : Nat :=
  if (getW s 31).wkState.toNat.testBit 4 then 2
  else if s.su.hold ∨ s.sec.wiping ∨ !s.su.hxFw then 0
  else if s.su.fail ≠ 1 ∧ s.su.stage ≥ (if s.chart.isNone then 8 else 9) ∧ servingReady s ∧
      (s.su.rtOk ∨ !(s.chart.any (fun c => c.consts.any (fun k => k.flags % 2 == 1)))) then 1
  else 0

/-- SVN floors rise to the images that have run to RUNNING after a start-up (R382). -/
def raiseFloors (s : State) : State :=
  { s with sec := { s.sec with floors := (s.sec.floors.zip s.sec.running).map (fun p => max p.1 p.2) } }

/-- HEALTH follows its conditions; the global block shows a change. -/
def health (s : State) : State :=
  let h := healthOf s
  if s.hx.health = h then s
  else
    let s := globalDirty { s with hx := { s.hx with health := h } }
    if h = 1 then raiseFloors s else s

/-! Tiles in and out of T3 (R58, R66, R364, R366) -/

/-- A tile enters T3, in which it retains nothing. -/
def tileOff (s : State) (t : Nat) : State :=
  let s := stopTile s t endFault
  let s := { s with draws := s.draws + 1 }
  setT s t { getT s t with tstate := .t3, held := false, chartLeave := false, launch := none, launchEnd := none }

/-- A tile leaves T3 for T1 with the reset values of its registers. -/
def tileOn (s : State) (t : Nat) : State :=
  let T := getT s t
  if T.tstate ≠ .t3 then s
  else
    let s := setT s t { T with tstate := .t1, idleMark := s.now, cycBase := 0, cycMark := s.now }
    let l := tileLevel s t
    modT s t (fun T => { T with level := l, duty := levelDuty l })

/-- The tiles assigned by a Chart, as a mask (R58). -/
def chartTiles (c : Chart) : Nat := c.consts.foldl (fun m k => m ||| k.tiles) 0
/-- The tiles retired by a Chart. -/
def chartRetired (c : Chart) : Nat := c.consts.foldl (fun m k => m ||| k.retired) 0

/-- Assigned tiles leave T3, the others enter it; retired ones are marked (R446 step 7, R65 step 4). -/
def placeTiles (s : State) (c : Chart) : State :=
  let on := chartTiles c
  let re := chartRetired c
  (List.range 1024).foldl (fun s t =>
    let s := if re.testBit t = (getT s t).retired then s else modT s t (fun T => { T with retired := re.testBit t })
    if on.testBit t then tileOn s t
    else if (getT s t).tstate = .t3 then s else tileOff s t) s

/-! The meter's Chart message (R403, R410) -/

/-- The channel of tile g under a Chart: that of its constellation, 0 in none (R53, R410). -/
def tileChannel (c : Chart) (t : Nat) : Nat :=
  match c.consts.find? (fun k => k.tiles.testBit t) with
  | some k => c.channels.getD k.id 0
  | none => 0

/-- The active Lodestar sends the meter the METER section, the tile map and the Chart serial. -/
def sendChartMsg (s : State) : State :=
  match s.chart with
  | none => s
  | some c => { s with fm := { s.fm with chartMsgs := s.fm.chartMsgs ++ [(c.serial, (List.range 1024).map (tileChannel c), c.meterBytes)] } }

/-! Memory made unpredictable -/

/-- The contents of some regions become unpredictable (R65, R437, R451). -/
def forgetRegions (s : State) (rs : List Nat) : State :=
  { s with
    mem := stScramble s.mem s.draws rs, mpoison := s.mpoison.filter (fun k => !rs.contains (k / 2 ^ 25)), draws := s.draws + 1 }

/-- The regions that use die d. -/
def regionsOf (c : Chart) (d : Nat) : List Nat := (List.range 1024).filter (fun r => (c.interleave.getD r (0, 0)).1.testBit d)

/-- Queues that a Chart binds anew take up a doorbell that came before (R67). -/
def bindQueues (s : State) : State :=
  s.qf.queues.foldl (fun s (p : Nat × Queue) => idleTest s p.1) s

/-- The level of a constellation that comes into force: its top level, but level 5 or slower under the brake, whose end then
lets it rise by one in each interval (R369, R373). -/
def firstLevel (s : State) (k : Constel) : Nat := if s.pw.brake then max 5 (topLevel s k) else topLevel s k

/-- The constellations of a Chart at their first levels (R369). -/
def topLevels (s : State) (c : Chart) : SMap Nat := c.consts.foldl (fun m k => mset m k.id (firstLevel { s with chart := some c } k)) []

/-- Step 4 of a full load (R65 Table 7): fences are released, every tile is reset, regions whose entry changed and those
of released domains are unpredictable, the update tables are invalid, the runtime's requests and models are gone. -/
def applyFull (s : State) (c : Chart) : State :=
  let old := s.chart
  let freed := (List.range 16).filter (fun d => fenced s d && releasable s d)
  let s := freed.foldl (fun s d =>
    let s := { s with
      lsFenced := wset (wset s.lsFenced (2 * d + 1) (2 * d) 0) (32 + d) (32 + d) 0
      link := { s.link with fabricFenced := s.link.fabricFenced.filter (· != d) }
      rec_ := { s.rec_ with stored := wset s.rec_.stored (2 * d + 1) (2 * d) 0
                            passed := s.rec_.passed - (if s.rec_.passed.testBit d then 2 ^ d else 0) } }
    setD s d { getD s d with dcTherm := wset (getD s d).dcTherm 3 3 0 }) s
  let s := (List.range 1024).foldl (fun s t =>
    if (getT s t).tstate = .t3 then s
    else
      let s := stopTile s t endFault
      setT s t { getT s t with held := false, chartLeave := false, launch := none, launchEnd := none, lsBytes := 0, tstate := .t1, idleMark := s.now }) s
  let gone := (List.range 1024).filter (fun r =>
    (match old with | some o => interleave o r != interleave c r | none => true) || freed.any (fun d => (interleave c r).1.testBit d))
  let s := forgetRegions s gone
  let s := { s with cdies := s.cdies.map (fun (p : Nat × CDieSt) => (p.1, { p.2 with sc := [] })) }
  let s := { s with chart := some c, rt := RtSt.reset, pw := { s.pw with level := topLevels s c, est := [] }
                    qf := { s.qf with coords := [] }, link := { s.link with switching := [] } }
  let s := ueInvalidate s
  let s := portsByChart s old
  let s := placeTiles s c
  let s := (List.range 1024).foldl relevel s
  let ends := match s.sec.session with
    | some e => (List.range 64).any (fun k => decide (k < c.constCount) && e.mask.testBit k && decide (e.level > c.debugMax.getD k 0))
    | none => false
  let s := if ends then endSession s else s
  health (globalDirty (bindQueues (sendChartMsg s)))

/-- The DIGEST of an image's header (R44). -/
def imageDigest (b : List Byte) : List Byte := cut b 0xC0 64

/-- A Chart is rejected: the registers and the receipt tell the code (R61, R63, R336). -/
def noteReject (s : State) (f : Fail) : State :=
  { s with ch := { s.ch with lastCode := f.1, lastSection := f.2.1, lastOffset := f.2.2 % 2 ^ 24, rejects := (s.ch.rejects + 1) % 2 ^ 32 } }

/-- The AMEND descriptor ends: serial in force and LAST_OFFSET in its receipt (R336). -/
def endAmend (s : State) (q idx status detail off : Nat) : State :=
  modDesc (endDesc s q idx status (toLE 8 ((s.chart.map (·.serial)).getD 0) ++ toLE 4 off)) q idx
    (fun d => { d with detail := detail })

/-- The started AMEND of queue 0. -/
def theAmend (s : State) : Option Desc := s.qf.descs.find? (fun d => d.q == 0 && dtype d == 6 && d.phase == .started)

/-- The image of an AMEND read by the Lodestar: its bytes, or the status that ends the descriptor; none while a read
waits (R41, R330). `host` holds what the host answered for an image in its memory, none for a failed read. -/
def readImage (s : State) (d : Desc) (host : Option (List Byte)) (errs : List SymErr) : Option (Except Nat (List Byte) × State) :=
  let a := df d 0x20 8
  let n := df d 0x28 4
  if df d 0x2C 1 = 1 then
    if !canRead s then none
    else
      let s := traffic (emit s (.hostRead s.hx.nextId a n (queuePasid (getQ s d.q)) false))
      let s := { s with hx := { s.hx with nextId := s.hx.nextId + 1 } }
      some ((match host with | some b => .ok ((b ++ List.replicate n 0#8).take n) | none => .error 0x30), s)
  else
    match cohReadFrom s (28 + s.hx.activeLs) a n 0 false errs with
    | none => none
    | some r => some ((if r.st ≠ 0 then .error 0x41 else if r.pois.any id then .error 0x40 else .ok r.bytes), r.s)

/-- A Lodestar failover abandons the AMEND that has started and not reached its commit, with code INTERRUPTED (R61, R68). -/
def interruptAmend (s : State) : State :=
  match theAmend s with
  | some d => if s.qf.amending.isSome then s else endAmend (noteReject s (0x1C, 0xFF, 0)) d.q d.idx 0x45 0x1C 0
  | none => s

/-- An AMEND whose image could not be read (R330). -/
def imageFailed (s : State) (d : Desc) (st : Nat) : State :=
  let s := endAmend s d.q d.idx st 0 0
  if st = 0x30 then faultQueue s d.q st else s

/-- Is the image an amendment? -/
def isAmendment (b : List Byte) : Bool := leAt (cut b 0 256) 0 4 == 0x4843584C && leAt (cut b 0 256) 6 2 == 1

/-- AMEND_FULL_LOAD: the started AMEND's image is read, validated, stored in the slot that is not current, marked current
and applied (R61, R65). `flash` tells that the write succeeded. -/
def execAmendFullLoad (host : Option (List Byte)) (flash : Bool) (errs : List SymErr) (s : State) : Host.Outcome State Fault Refusal :=
  .next (
    match theAmend s with
    | none => s
    | some d =>
      if s.qf.amending.isSome ∨ scanOpen s then s
      else
        match readImage s d host errs with
        | none => s
        | some (.error st, s1) => imageFailed s1 d st
        | some (.ok b, s1) =>
          if isAmendment b then s
          else
            match validate s1 b s1.chart false with
            | some f => endAmend (noteReject s1 f) d.q d.idx 0x45 f.1 f.2.2
            | none =>
              if !flash then endAmend (noteReject s1 (0x1E, 0xFF, 0)) d.q d.idx 0x45 0x1E 0
              else
                let cur := 1 - s1.ch.current
                let s2 := { s1 with ch := { s1.ch with slots := s1.ch.slots.set cur { base := b, chain := [] }, current := cur, chainLen := 0, state := 2 } }
                let s3 := extendMeas (applyFull s2 (chartOf b)) 2 (imageDigest b)
                endAmend s3 d.q d.idx 0 0 0)

/-! Amendments (R66 to R68) -/

/-- The runtime migrates its work off a tile that leaves, the coordinator to its next place, and halts there (R66, R339). -/
def migrate (s : State) (t : Nat) : State :=
  match constOfTile s t with
  | none => rtHalt s t
  | some k =>
    let was := (coordPlace { s with tiles := mset s.tiles t { getT s t with chartLeave := false } } k).any (fun p =>
      p.1 == t && rtRuns (getT s t) k.id p.2)
    let s := rtHalt s t
    setCoords (if was then placeCoord s k else s)

/-- The runtime's tasks of a constellation that no longer serves stop (R339). -/
def rtWithdraw (s : State) (id : Nat) : State :=
  if (constById s id).any (fun k => k.flags.testBit 0) then s
  else ((s.tiles.filter (fun p => rtResident p.2 id)).map (·.1)).foldl releaseTile s

/-- The Lodestar sets TL_CHART_LEAVE on a leaving tile (R98). -/
def setLeave (s : State) (t : Nat) : State :=
  let T := getT s t
  if T.chartLeave ∨ T.tstate = .t3 then s
  else
    let s := modT s t (fun T => { T with
      chartLeave := true
      ctx := Vector.ofFn (fun i => let C := T.ctx[i]; if C.run = .idle then C else { C with ipend := C.ipend ||| 4 }) })
    let s := qwakeAll s 2 (fun u _ => u == t)
    let s := if rtTile (getT s t) then migrate s t else s
    if (getT s t).tstate = .t1 ∨ (getT s t).tstate = .t2 then
      modT (reclock s t .t0 (getT s t).level (getT s t).duty) t (fun T => { T with idleMark := s.now })
    else s

/-- The tiles an amendment of `target` takes out of its constellation. -/
def leavingTiles (o n : Chart) (target : Nat) : List Nat :=
  match o.consts.find? (fun k => k.id == target), n.consts.find? (fun k => k.id == target) with
  | some a, some b => (List.range 1024).filter (fun t => a.tiles.testBit t && !b.tiles.testBit t)
  | _, _ => []

/-- AMEND_AMENDMENT: the started AMEND's amendment is read and validated, appended to the current slot's chain, which
commits it, and its quiesce begins (R61, R66 steps 1 to 3). -/
def execAmendAmendment (host : Option (List Byte)) (flash : Bool) (errs : List SymErr) (s : State) : Host.Outcome State Fault Refusal :=
  .next (
    match theAmend s with
    | none => s
    | some d =>
      if s.qf.amending.isSome ∨ scanOpen s then s
      else
        match readImage s d host errs with
        | none => s
        | some (.error st, s1) => imageFailed s1 d st
        | some (.ok b, s1) =>
          if !isAmendment b then s
          else
            let target := leAt (cut b 0 256) 0x0B 1
            let slot := s1.ch.slots.getD s1.ch.current ChSlot.empty
            match validate s1 b s1.chart false, s1.chart with
            | some f, _ => endAmend (noteReject s1 f) d.q d.idx 0x45 f.1 f.2.2
            | none, none => s
            | none, some c =>
              if slot.chain.length ≥ 64 then endAmend (noteReject s1 (0x1D, 0xFF, 0)) d.q d.idx 0x45 0x1D 0
              else if !flash then endAmend (noteReject s1 (0x1E, 0xFF, 0)) d.q d.idx 0x45 0x1E 0
              else
                let leaving := leavingTiles c (amendedChart c b) target
                let s2 := { s1 with ch := { s1.ch with
                  slots := s1.ch.slots.set s1.ch.current { slot with chain := slot.chain ++ [b] }, state := 3, target := target % 64 } }
                let s3 := modF s2 (fun f => { f with amending := some { q := d.q, idx := d.idx, target := target, leaving := leaving, mark := s.now } })
                leaving.foldl setLeave s3)

/-- The queues of TARGET that an amendment drops stay bound while descriptors of them are in flight; those it binds again are
bound by the new Chart (R67). -/
def dropQueues (s : State) (o n : Chart) (target : Nat) : State :=
  let bound := fun (c : Chart) (q : Nat) => (c.queues ++ c.consts.flatMap (·.queues)).any (fun e => e.queue == q)
  let gone := ((o.consts.filter (fun k => k.id == target)).flatMap (·.queues)).filter (fun e =>
    !bound n e.queue && s.qf.descs.any (fun d => d.q == e.queue))
  modF s (fun f => { f with
    unbinding := (f.unbinding.filter (fun u => !bound n u.1.queue)) ++ gone.map (fun e => (e, target)) })

/-- Steps 4 to 6 of an amendment (R66, R67): leaving tiles with a launch are reset and enter T3, the new sections are
applied, tiles that join or were held and stay are released to T1. -/
def applyAmend (s : State) (a : Amending) : State :=
  match s.chart with
  | none => s
  | some c =>
    let slot := s.ch.slots.getD s.ch.current ChSlot.empty
    let b := slot.chain.getLastD []
    let n := amendedChart c b
    let s := a.leaving.foldl (fun s t => tileOff (collectEnd (if resident (getT s t) then stopTile s t endFault else s) t) t) s
    let s := dropQueues s c n a.target
    let s := { s with chart := some n, ch := { s.ch with state := 2, chainLen := s.ch.chainLen + 1, target := a.target } }
    let k := n.consts.find? (fun k => k.id == a.target)
    let top := match k with | some k => firstLevel s k | none => 0
    let s := { s with pw := { s.pw with level := mset s.pw.level a.target (max top (mget s.pw.level top a.target)) } }
    let s := match k with
      | none => s
      | some k => (List.range 1024).foldl (fun s t =>
          let s := if k.retired.testBit t then modT s t (fun T => { T with retired := true }) else s
          if k.tiles.testBit t then
            let T := getT s t
            if T.tstate = .t3 then tileOn s t
            else if T.held then
              let s := collectEnd s t
              relevel (setT s t { getT s t with held := false, tstate := .t1, idleMark := s.now }) t
            else relevel s t
          else s) s
    let s := rtWithdraw s a.target
    let s := modF s (fun f => { f with amending := none })
    let s := extendMeas s 2 (imageDigest b)
    let s := health (globalDirty (bindQueues (sendChartMsg s)))
    match getDesc s a.q a.idx with
    | some d => if d.phase = .started then endAmend s a.q a.idx 0 0 0 else s
    | none => s

/-- QUIESCE_END: no leaving tile still holds a launch, fenced and held ones not counted (R66 step 3, R68). -/
def execQuiesceEnd (s : State) : Host.Outcome State Fault Refusal :=
  .next (
    match s.qf.amending with
    | none => s
    | some a =>
      if a.leaving.all (fun t => !resident (getT s t) || fenced s (t / 64) || (getT s t).held) then applyAmend s a else s)

/-- QUIESCE_TIMEOUT: QUIESCE_TICKS have passed since the commit (R47, R66). -/
def execQuiesceTimeout (s : State) : Host.Outcome State Fault Refusal :=
  .next (
    match s.qf.amending, s.chart with
    | some a, some c => if s.now ≥ a.mark + c.quiesceTicks then applyAmend s a else s
    | _, _ => s)

/-! The Chart registers (R63) -/

/-- LS_CHART_STATUS. -/
def chartStatus (s : State) : Word :=
  let c := s.ch
  toW (c.lastOffset * 2 ^ 40 + c.lastCode * 2 ^ 32 + c.lastSection * 2 ^ 24 + c.target * 2 ^ 18 + c.chainLen * 256 + c.state)

end Machine
end Sys2Proof
end

