-- ==== Sys2Proof/Machine/Power.lean ====
section
/-!
DEFINITION. Clocks, tile and module states, levels and caps, over-power, the power brake (15 R361 to R377).
-/

namespace Sys2Proof
namespace Machine

/-! Tile states (R364 to R366) -/

/-- A context cannot issue and no wake is pending for it; a context that a debug session has halted keeps its tile in T0
(R364, R396). -/
def ctxQuiet (C : Ctx) : Bool :=
  C.run != .running && C.dbg == 0 && (takeable C).isNone && C.pend.isNone && C.rfaults.isEmpty && C.loads.isEmpty

/-- A tile is idle (R364). -/
def tileIdle (T : Tile) : Bool :=
  (List.range 8).all (fun c => ctxQuiet T.ctx[cix c]) && T.lane.isEmpty && T.mx.isEmpty && T.dma.isEmpty && T.dmaReqs == 0
    && T.rangeQ.isEmpty && T.mb.isEmpty && T.reads.all (fun r => r.answer.isSome) && T.writes.all (fun w => w.status.isSome)

/-- TILE_IDLE_T1: the 64th consecutive idle cycle of a tile in T0 ends (R364). -/
def execTileIdleT1 (t : TileId) (s : State) : Host.Outcome State Fault Refusal :=
  .next (
    let T := getT s t.val
    if T.tstate = .t0 ∧ tileIdle T ∧ !rtBusy s t.val then
      modT (reclock s t.val .t1 T.level T.duty) t.val (fun T => { T with idleMark := s.now })
    else s)

/-- T2_IDLE of a tile's constellation (R56). -/
def t2Idle (s : State) (t : Nat) : Nat := ((constOfTile s t).map (·.env.t2Idle)).getD 0

/-- TILE_T2_ENTRY: a tile has been T2_IDLE ticks in T1; its counts are posted and its L1I, L1D and tile cache
invalidated first (R364, R366, R408). -/
def execTileT2Entry (t : TileId) (s : State) : Host.Outcome State Fault Refusal :=
  .next (
    let T := getT s t.val
    if T.tstate = .t1 ∧ t2Idle s t.val ≠ 0 ∧ s.now ≥ T.idleMark + t2Idle s t.val then
      modT (reclock (sendPost s t.val) t.val .t2 T.level T.duty) t.val (fun T => { T with l1d := [], l1i := [], tc := [] })
    else s)

/-- TILE_WAKE: a wake event of R365 has reached a tile in T1 or T2. -/
def execTileWake (t : TileId) (s : State) : Host.Outcome State Fault Refusal :=
  .next (wakeTile s t.val)

/-- OP_POINT_CHANGE: a tile takes the level that its constellation's level and the forces on its die give (R363). -/
def execOpPointChange (t : TileId) (s : State) : Host.Outcome State Fault Refusal := .next (relevel s t.val)

/-! Levels against the caps (R369, R370) -/

/-- The module cap in force: 1,600 W with no Chart (R370). -/
def moduleCap (s : State) : Nat := match s.chart with | some c => c.env.capW | none => 1600

/-- Level in force of a constellation. -/
def levelOf (s : State) (k : Constel) : Nat := mget s.pw.level (topLevel s k) k.id

/-- P_c of a constellation. -/
def estOf (s : State) (k : Constel) : Nat := mget s.pw.est 0 k.id

/-- a has the larger P_c ÷ CAP_W than b. -/
def ratioGt (s : State) (a b : Constel) : Bool := decide (estOf s a * b.env.capW > estOf s b * a.env.capW)

/-- The first of a list that no other beats; a tie goes to the lower number. -/
def pick (beats : Constel → Constel → Bool) : List Constel → Option Constel
  | [] => none
  | k :: r =>
    match pick beats r with
    | none => some k
    | some j => if beats j k || (!beats k j && decide (j.id < k.id)) then some j else some k

/-- The constellations that step down under steps 1 and 2 of R370 against a cap. -/
def stepsDown (s : State) (cs : List Constel) (cap : Nat) : List Constel :=
  let one := cs.filter (fun k => decide (estOf s k > k.env.capW) && decide (levelOf s k < 7))
  let two := if s.pw.inputW > cap then
      pick (ratioGt s) (cs.filter (fun k => decide (levelOf s k < 7) && !one.any (fun j => j.id == k.id)))
    else none
  one ++ two.toList

/-- The constellation that steps up under step 3 of R370. -/
def stepUp (s : State) (cs : List Constel) (cap : Nat) : Option Constel :=
  if 10 * s.pw.inputW < 9 * cap then
    pick (fun a b => ratioGt s b a) (cs.filter (fun k => decide (levelOf s k > topLevel s k) && decide (10 * estOf s k < 9 * k.env.capW)))
  else none

/-- A constellation's level changes. -/
def setLevel (s : State) (k : Constel) (l : Nat) : State := { s with pw := { s.pw with level := mset s.pw.level k.id l } }

/-- One interval of R370 against a cap or, under the brake, a target: the inputs are taken, the steps follow; `up` allows
step 3. -/
def interval (s : State) (pin : Nat) (est : SMap Nat) (cap : Nat) (up : Bool) : State :=
  let cs := match s.chart with | some c => c.consts | none => []
  let s := { s with pw := { s.pw with inputW := pin, est := est, mark := s.now, lifting := 0 } }
  match stepsDown s cs cap with
  | [] =>
    if up then match stepUp s cs cap with | some k => setLevel s k (levelOf s k - 1) | none => s
    else s
  | ks => ks.foldl (fun s k => setLevel s k (levelOf s k + 1)) s

/-- Every constellation is at level 7. -/
def allSeven (s : State) : Bool := match s.chart with | some c => c.consts.all (fun k => levelOf s k == 7) | none => true

/-- The limits are exhausted (R370, R373): FLOOR is set once the input has stayed above the module cap for 12,500 ticks,
or at once above the brake's target; CAP_UNREACHABLE is recorded every 12,500,000 ticks while the first lasts. -/
def floorTest (s : State) (braked : Bool) : State :=
  let above := allSeven s && decide (s.pw.inputW > moduleCap s)
  let from_ := if above then some (s.pw.overFrom.getD s.now) else none
  let long := match from_ with | some f => decide (s.now ≥ f + 12500) | none => false
  let due := long && (match s.pw.capMark with | some m => decide (s.now ≥ m + 12500000) | none => true)
  let low := braked && allSeven s && decide (10 * s.pw.inputW > 3 * moduleCap s)
  let s := { s with pw := { s.pw with overFrom := from_, floor := long || low
                                      capMark := if due then some s.now else if long then s.pw.capMark else none } }
  if due then postErr s (lsDie s) 0 0x0801 0 0 (toLE 2 s.pw.inputW) else s

/-- POWER_INTERVAL with the measured input and the estimates, in W, every 1,250 ticks outside the brake (R370). -/
def execPowerInterval (pin : Nat) (est : SMap Nat) (s : State) : Host.Outcome State Fault Refusal :=
  .next (
    if !lsAlive s ∨ !s.su.mainOk ∨ s.pw.brake ∨ s.now < s.pw.mark + 1250 then s
    else floorTest (interval s pin est (moduleCap s) true) false)

/-- BRAKE_INTERVAL: while the brake is in force, every 125 ticks against 30 % of the module cap, without a step up
(R373). -/
def execBrakeInterval (pin : Nat) (est : SMap Nat) (s : State) : Host.Outcome State Fault Refusal :=
  .next (
    if !lsAlive s ∨ !s.su.mainOk ∨ !s.pw.brake ∨ s.now < s.pw.mark + 125 then s
    else floorTest (interval s pin est (3 * moduleCap s / 10) false) true)

/-! Over-power (R371) -/

/-- Set or clear a bit of a die's WK_STATE. -/
def setWk (s : State) (die b : Nat) (on : Bool) : State :=
  setW s die { getW s die with wkState := wset (getW s die).wkState b b (b2n on) }

/-- The tiles of some compute dies take their levels. -/
def relevelDies (s : State) (ds : List Nat) : State :=
  (List.range 1024).foldl (fun s t => if ds.contains (t / 64) then relevel s t else s) s

/-- OVER_POWER: the averaged input exceeds 2,000 W; every compute die forces its tiles to level 5 or slower and records it
(R371). -/
def execOverPower (pin : Nat) (s : State) : Host.Outcome State Fault Refusal :=
  .next (
    if pin ≤ 2000 ∨ !s.su.mainOk then s
    else
      let ds := (List.range 16).filter (fun d => !(getW s d).wkState.toNat.testBit 3)
      relevelDies (ds.foldl (fun s d => postErr (setWk s d 3 true) d 2 0x0802 d 0 []) s) ds)

/-- The over-power force of a die lifts; the Lodestar's levels govern again from the next interval. -/
def liftForce (s : State) (d : Nat) : State :=
  let s := setWk s d 3 false
  { s with pw := { s.pw with lifting := s.pw.lifting ||| 2 ^ d } }

/-- OVERPOWER_CLEAR: the active Lodestar writes 1 to WK_STATE.OVERPOWER of a compute die (R371, R376). -/
def execOverpowerClear (d : CDie) (s : State) : Host.Outcome State Fault Refusal :=
  .next (if lsAlive s ∧ (getW s d.val).wkState.toNat.testBit 3 then liftForce s d.val else s)

/-- OVERPOWER_AUTO_LIFT: no Lodestar runs, and the input has stayed below 1,800 W for 12,500 ticks (R371). -/
def execOverpowerAutoLift (s : State) : Host.Outcome State Fault Refusal :=
  .next (
    if lsAlive s then s
    else
      let ds := (List.range 16).filter (fun d => (getW s d).wkState.toNat.testBit 3)
      let s := ds.foldl (fun s d => setWk s d 3 false) s
      relevelDies s ds)

/-! The power brake (R372 to R374) -/

/-- The brake comes into force on every die: constellations at level 5 or slower, stacks at 25 %, ports at one data flit in
four; the intervals of 125 ticks count from here (R373). -/
def brakeOn (s : State) : State :=
  if s.pw.brake then s
  else
    let s := (List.range 32).foldl (fun s i => setWk s i 2 true) s
    let cs := match s.chart with | some c => c.consts | none => []
    let s := cs.foldl (fun s k => setLevel s k (max 5 (levelOf s k))) s
    relevelDies { s with pw := { s.pw with brake := true, brakeFrom := s.now, mark := s.now } } (List.range 16)

/-- The brake ends; the forced limits lift, and BRAKE_STUCK with them (R373, R374). -/
def brakeOff (s : State) : State :=
  if !s.pw.brake then s
  else
    let s := (List.range 32).foldl (fun s i => setWk s i 2 false) s
    relevelDies { s with pw := { s.pw with brake := false, brakeStuck := false } } (List.range 16)

/-- PWRBRK_ASSERT: the eighth consecutive low sample (R372). -/
def execPwrbrkAssert (s : State) : Host.Outcome State Fault Refusal :=
  .next (
    let s := { s with pw := { s.pw with low := true, accepted := s.now } }
    if s.pw.masked then s else brakeOn s)

/-- The hold of the most recent acceptance has expired. -/
def holdOver (s : State) : Bool := decide (s.now ≥ s.pw.accepted + 125000)

/-- PWRBRK_DEASSERT: the eighth consecutive high sample; MASKED clears, with BRAKE_STUCK (R372, R374). -/
def execPwrbrkDeassert (s : State) : Host.Outcome State Fault Refusal :=
  .next (
    if !s.pw.low then s
    else
      let s := { s with pw := { s.pw with low := false, masked := false, brakeStuck := s.pw.brakeStuck && !s.pw.masked } }
      if holdOver s then brakeOff s else s)

/-- BRAKE_HOLD_EXPIRY: 125,000 ticks after the most recent accepted assertion (R372). -/
def execBrakeHoldExpiry (s : State) : Host.Outcome State Fault Refusal :=
  .next (if s.pw.brake ∧ !s.pw.low ∧ holdOver s then brakeOff s else s)

/-- BRAKE_STUCK: the brake has been in force for 125,000,000 ticks without interruption (R374). -/
def execBrakeStuck (s : State) : Host.Outcome State Fault Refusal :=
  .next (
    if !lsAlive s ∨ !s.pw.brake ∨ s.pw.brakeStuck ∨ s.now < s.pw.brakeFrom + 125000000 then s
    else postErr { s with pw := { s.pw with brakeStuck := true } } (lsDie s) 2 0x0803 0 0 [])

/-! Module states (R367, R368) -/

/-- No tile runs and no descriptor is in flight. -/
def quietModule (s : State) : Bool := s.tiles.all (fun p => p.2.tstate != .t0) && s.qf.descs.isEmpty

/-- M1_ENTRY (R367). -/
def execM1Entry (s : State) : Host.Outcome State Fault Refusal :=
  .next (if s.su.mainOk ∧ s.pw.mstate = 0 ∧ quietModule s then { s with pw := { s.pw with mstate := 1 } } else s)

/-- M1_EXIT; a SCAN session holds the module in M1 (R367, R387). -/
def execM1Exit (s : State) : Host.Outcome State Fault Refusal :=
  .next (if s.pw.mstate = 1 ∧ !quietModule s ∧ !scanOpen s then { s with pw := { s.pw with mstate := 0 } } else s)

/-- The reason to refuse M2; a SCAN session refuses it, and so does a wipe in progress (R368, R397, R398). -/
def m2Refusal (s : State) : Option Nat :=
  if !drained s then some 1
  else if s.sec.session.any (fun e => (e.level == 2 && e.hold) || e.level == 3) then some 2
  else if s.qf.amending.isSome ∨ s.qf.descs.any (fun d => dtype d == 6) then some 3
  else if s.pw.mstate = 2 ∨ s.sec.wiping then some 4
  else none

/-- The registers of a compute die after a reset of the die: its die marks are kept (R6, R251, R451). -/
def dieReset (D : CDieSt) : CDieSt :=
  { CDieSt.reset with dcDiemark := wset CDieSt.reset.dcDiemark 9 0 (wfld D.dcDiemark 9 0) }

/-- A die's rail and PLL bits: the PLL runs whenever the rail is on (R362). -/
def railBits (s : State) (on : Bool) (ds : List Nat) : State := ds.foldl (fun s i => setWk (setWk s i 1 on) i 0 on) s

/-- Every port to electrical idle: what it held is lost. -/
def portsOff (s : State) : State := (List.range 24).foldl (fun s p => setP (timeoutTags s p (fun _ => true)) p Port.reset) s

/-- What the compute and link dies lose with their rails in M2: everything but DRAM contents, die marks, and the fences, which
the Lodestar holds (R367 Table 2). -/
def coresOff (s : State) : State :=
  let l := s.link
  let s := { s with
    cdies := s.cdies.map (fun (p : Nat × CDieSt) => (p.1, dieReset p.2)), sram := [], bridgesDown := []
    link := { LinkSt.reset with fabricFenced := l.fabricFenced, linkFenced := l.linkFenced, messages := l.messages } }
  railBits s false (List.range 28)

/-- M2_ENTER_REQ: LS_PWR_CTL.REQ = 1, or the owner's PLDM command. The sequence of Table 3 is one step of this model. -/
def execM2EnterReq (s : State) : Host.Outcome State Fault Refusal :=
  .next (
    if !lsAlive s ∨ !s.su.mainOk then s
    else
      match m2Refusal s with
      | some r => { s with pw := { s.pw with refusal := r } }
      | none =>
        let s := if s.sec.session.any (fun e => e.level == 2) then endSession s else s
        let s := (List.range 1024).foldl (fun s t => if (getT s t).tstate = .t3 then s else tileOff s t) s
        let s := coresOff (ueInvalidate (portsOff s))
        { s with pw := { s.pw with mstate := 2, refusal := 0 }, sec := { s.sec with chal := none } })

/-- The stacks leave self-refresh and the patrol of each begins its first interval (R245, R446). -/
def patrolBegins (s : State) : State :=
  { s with cdies := (List.range 16).foldl (fun m d => mset m d { mget m CDieSt.reset d with patrolMark := s.now }) s.cdies }

/-- M0_RETURN_REQ: LS_PWR_CTL.REQ = 2, or the owner's PLDM command (R368 Table 3). The runtime restarts by
RUNTIME_LAUNCH. -/
def execM0ReturnReq (s : State) : Host.Outcome State Fault Refusal :=
  .next (
    if !lsAlive s ∨ !s.su.mainOk then s
    else if s.pw.mstate ≠ 2 then { s with pw := { s.pw with refusal := 4 } }
    else
      let s := railBits s true (List.range 28)
      let s := patrolBegins s
      let s := { s with pw := { s.pw with mstate := 1, refusal := 0 } }
      match s.chart with
      | none => s
      | some c => portsByChart (placeTiles s c) none)

/-! Registers (R376) -/

/-- LS_PWR_STAT. -/
def pwrStat (s : State) : Word :=
  let p := s.pw
  toW (moduleCap s % 4096 * 2 ^ 40 + p.inputW % 4096 * 2 ^ 28 + p.refusal * 2 ^ 24 + b2n p.floor * 128 + b2n p.masked * 64
    + b2n p.brakeStuck * 32 + b2n p.brake * 16 + p.mstate)

/-- LS_CLEVEL(c): with the ROM defaults no level above 2.0 GHz is in force (R376, R453). -/
def clevel (s : State) (c : Nat) : Word :=
  match constById s c with
  | some k => toW (k.env.capW % 4096 * 65536 + estOf s k % 4096 * 16 + (if s.su.trimSrc = 2 then max 2 (levelOf s k) else levelOf s k) % 8)
  | none => 0

/-- WK_TSTATEh of compute die d. -/
def tstateReg (s : State) (d h : Nat) : Word :=
  toW ((List.range 32).foldl (fun w j =>
    let c := match (getT s (64 * d + 32 * h + j)).tstate with | .t0 => 0 | .t1 => 1 | .t2 => 2 | .t3 => 3
    w + c * 4 ^ j) 0)

end Machine
end Sys2Proof
end

