-- ==== Sys2Proof/Machine/Reset.lean ====
section
/-!
DEFINITION. What the reset kinds do to the state (19 R449 to R451), the restart of the Lodestar firmware, die-internal
fatal faults (18 R431) and the end of debug sessions, which for SCAN is a module warm reset (16 R394).
-/

namespace Sys2Proof
namespace Machine

/-- The host attachment after a reset of the function: Table 5 of R451; its numbers of requests go on. -/
def hxCleared (h : HxSt) : HxSt := { HxSt.reset with nextId := h.nextId, activeLs := h.activeLs, health := h.health }

/-- Everything that needs the compute-die, link-die and HX logic goes back to reset: tiles off, stack caches written
back, queues and configuration space reset, ports idle (R448, R450, R451). -/
def moduleDown (s : State) : State :=
  let s := queuesClear s
  let s := (List.range 1024).foldl (fun s t => if (getT s t).tstate = .t3 then s else tileOff s t) s
  let s := { s with
    qf := { s.qf with amending := none, coords := [] }
    hx := hxCleared s.hx
    link := LinkSt.reset, bridgesDown := [], sram := []
    cdies := s.cdies.map (fun p => (p.1, dieReset p.2))
    tiles := s.tiles.map (fun (p : Nat × Tile) => (p.1, { p.2 with launch := none, launchEnd := none, retired := false }))
    rt := RtSt.reset }
  railBits s false (List.range 28)

/-- What waits in the record queues through a restart of the Lodestar firmware is posted with HELD (R429, R434). -/
def holdRecords (s : State) : State :=
  { s with wakes := s.wakes.map (fun p => (p.1, { p.2 with
      errQ := p.2.errQ.map (fun r => { r with flags := setFld r.flags 3 3 1 })
      wkState := wset p.2.wkState 4 4 0 })) }

/-- MASKED has cleared: an input that is still accepted low puts the brake in force again (R372, R374). -/
def inputActs (p : PwSt) (s : State) : State := if p.masked ∧ p.low then brakeOn s else s

/-- The Lodestar firmware restarts: start-up goes on from step 2; what lives in the Lodestars is at its reset value,
orphan fences are released, sessions end (R383, R392, R400, R437, R439, R449, R451). The brake is the wake controllers'
and stays; MASKED clears (R374). -/
def lsRestart (s : State) : State :=
  let s := holdRecords (endHalts s)
  let p := s.pw
  inputActs p { s with
    chart := none, lsFenced := 0
    hx := { s.hx with activeLs := 0, stopped := false, health := 0 }
    ch := { ChSt.reset with slots := s.ch.slots, current := s.ch.current }
    pw := { PwSt.reset with brake := p.brake, low := p.low, accepted := p.accepted, brakeFrom := p.brakeFrom, mark := s.now }
    rec_ := { RecSt.reset with failovers := s.rec_.failovers, stored := s.rec_.stored, avail := s.rec_.avail }
    sec := { s.sec with
      meas := measZero, standby := measZero, unsent := [], events := 0, chal := none, session := none, audit := none
      sessions := 0, refusal := 0, spdm := SpdmSt.reset, wiping := false, running := [0, 0, 0, 0], boot := [none, none, none, none] }
    rt := RtSt.reset
    su := { s.su with stage := 1, fail := 0, trimSrc := 0, trimPending := false, trimRefusal := 0, mainOk := false, hxFw := false, rtOk := false } }

/-- The reset hold: entered by PERST# or by a module warm reset (R449, R450). -/
def enterHold (s : State) (perst : Bool) : State :=
  let s := lsRestart (moduleDown s)
  { s with su := { s.su with hold := true, holdPerst := perst, holdDone := false } }

/-- A module warm reset, ignored during a reset hold (R457). -/
def warmReset (s : State) : State := if s.su.hold then s else enterHold s false

/-! Die-internal fatal faults (R431) -/

/-- The fatal action of a link die: both its ports DOWN, its update engine answers every put FENCED. The DOWN_REASON of
such a port is not stated and is a free value. -/
def linkFence (s : State) (n : Nat) : State :=
  let r := (Config.freeValue s.draws).toNat % 8
  let s := { s with draws := s.draws + 1, link := { s.link with linkFenced := sIns s.link.linkFenced n } }
  [2 * n, 2 * n + 1].foldl (fun s p => portLost s p r) s

/-- The DIE_FATAL record of a die with its die-internal reason (R430). -/
def dieRecord (i reason : Nat) (s : State) : State := postErr s i 3 0x0B01 i 0 (toLE 4 reason)

/-- The fatal action of a die (R431 Table 4). The table gives the meter no action, so there is only the record. -/
def dieFatal (s : State) (i reason : Nat) : State :=
  if i < 16 then
    if fenceCause s i = 2 then dieRecord i reason s else domainFence s i 2 (dieRecord i reason)
  else
    let s := dieRecord i reason s
    if i < 28 then linkFence s (i - 16)
    else if i < 30 then { s with rec_ := { s.rec_ with held := s.rec_.held.set (i - 28) true } }
    else if i = 31 then warmReset s
    else s

/-- DIE_FATAL: a die's self-check finds a fatal fault; an absent domain, or one without power, finds none (R431). -/
def execDieFatal (i : DieIdx) (reason : BitVec 32) (s : State) : Host.Outcome State Fault Refusal :=
  .next (if s.su.auxGood ∧ (s.su.mainOk ∨ (28 ≤ i.val ∧ i.val ≤ 30)) then dieFatal s i.val reason.toNat else s)

/-! The end of a session -/

/-- The open session ends; a SCAN session ends with a module warm reset (R394). -/
def closeSession (s : State) : State :=
  if scanOpen s then warmReset (endSession s) else endSession s

end Machine
end Sys2Proof
end

