-- ==== Sys2Proof/Machine/Recovery.lean ====
section
/-!
DEFINITION. Errors and recovery: draining the record queues (R434, R435), release tests (R437), heartbeats, failover,
orphan fences (R438 to R440), availability (R441, R442).
-/

namespace Sys2Proof
namespace Machine

/-! Draining (R434 to R436) -/

/-- The die whose turn is next: in ascending die index from the turn on, the first whose queue holds a record. -/
def nextDie (s : State) : Option Nat :=
  ((List.range 32).map (fun i => (s.rec_.turn + i) % 32)).find? (fun i => !(getW s i).errQ.isEmpty)

/-- Bytes 0x08 to 0x3F of an error record (R429 Table 2). -/
def errBytes (r : ErrRec) : List Byte :=
  toLE 1 (r.cls % 4) ++ toLE 1 (r.flags % 16) ++ toLE 1 r.die ++ [0#8] ++ toLE 2 r.code ++ toLE 2 r.unit ++ toLE 4 r.dieSeq
    ++ toLE 4 r.count ++ toLE 8 r.addr ++ detail32 r.detail

/-- ERROR_RECORD_POST: the active Lodestar posts the oldest record of the die whose turn it is to the error ring of 1,024
entries, bytes 0x08 on first, then its SEQ (R336, R434). -/
def execErrorRecordPost (s : State) : Host.Outcome State Fault Refusal :=
  .next (
    if !lsAlive s ∨ diff32 s.qf.errPosts s.qf.errCons ≥ 1024 then s
    else if !mayPost s then defer s .errors
    else
      match nextDie s with
      | none => s
      | some i =>
        let w := getW s i
        match w.errQ with
        | [] => s
        | r :: rest =>
          let a := lbBase s + 0x11000 + 64 * (s.qf.errPosts % 1024)
          let s1 := postWrite (postWrite s (a + 8) (errBytes r)) a (toLE 8 (s.qf.errPosts + 1))
          let s2 := setW s1 i { w with errQ := rest }
          let s3 := { s2 with rec_ := { s2.rec_ with turn := (i + 1) % 32, posted := s2.rec_.posted ++ [(i, r)]
                                                     lostRead := mset s2.rec_.lostRead i w.lost } }
          globalDirty (modF s3 (fun f => { f with errPosts := f.errPosts + 1, errLost := lostSum s3 - f.lostBase })))

/-! Release tests (R437) -/

/-- FENCE_RELEASE_TEST: a write of LS_FENCE_CTL by the host or the active Lodestar; a bit is ignored unless its domain is
fenced FATAL (R444). -/
def execFenceReleaseTest (mask : BitVec 16) (s : State) : Host.Outcome State Fault Refusal :=
  .next (
    if !lsAlive s then s
    else
      let m := maskOf 16 (fun d => mask.toNat.testBit d && fenceCause s d == 2)
      { s with rec_ := { s.rec_ with busy := s.rec_.busy ||| m } })

/-- RELEASE_TEST_DONE: a running test of domain d passes or fails (R437, R444). -/
def execReleaseTestDone (d : CDie) (pass : Bool) (s : State) : Host.Outcome State Fault Refusal :=
  .next (
    if !s.rec_.busy.testBit d.val then s
    else
      let b := 2 ^ d.val
      let r := { s.rec_ with busy := s.rec_.busy ^^^ b }
      { s with rec_ := if pass then { r with passed := r.passed ||| b, failed := r.failed - (r.failed &&& b) }
                       else { r with failed := r.failed ||| b } })

/-! Heartbeats and failover (R438, R439) -/

/-- The standby runs. -/
def peerAlive (s : State) : Bool :=
  !s.rec_.held.getD (1 - s.hx.activeLs) true && !s.rec_.absent.getD (1 - s.hx.activeLs) true

/-- The wake controllers receive a heartbeat of the active Lodestar. -/
def beatDies (s : State) (q : Nat) : State :=
  (List.range 32).foldl (fun s i => setW s i { getW s i with hbMark := s.now, hbSeq := q }) s

/-- What a heartbeat of the active Lodestar carries to the standby: measurement extensions and draining positions (R385,
R438). -/
def beatStandby (s : State) : State :=
  if !peerAlive s then s
  else { s with
    rec_ := { s.rec_ with posted := [] }
    sec := { s.sec with standby := s.sec.unsent.foldl (fun m x => extendReg m x.1 x.2) s.sec.standby, unsent := [] } }

/-- LS_HEARTBEAT of the active or of the standby Lodestar, every 12,500 ticks (R438). -/
def execLsHeartbeat (standby : Bool) (s : State) : Host.Outcome State Fault Refusal :=
  .next (
    if standby then
      if !lsAlive s ∨ !peerAlive s then s
      else if (match s.rec_.peerTick with | some t => decide (s.now < t + 12500) | none => true) then s
      else { s with rec_ := { s.rec_ with peerSeq := s.rec_.peerSeq + 1, peerTick := some s.now } }
    else if !lsAlive s ∨ s.now < s.rec_.hbTick + 12500 then s
    else
      let q := s.rec_.hbSeq + 1
      beatStandby (beatDies { s with rec_ := { s.rec_ with hbSeq := q, hbTick := s.now } } q))

/-- Records go back to the front of their queues, oldest first. -/
def requeueRecords (s : State) : List (Nat × ErrRec) → State
  | [] => s
  | (i, r) :: rest =>
    let s := requeueRecords s rest
    setW s i { getW s i with errQ := r :: (getW s i).errQ }

/-- What a failover loses beside the open session: the challenge, management requests in progress (R400, R438). -/
def dropRequests (s : State) : State :=
  { s with sec := { s.sec with chal := none, audit := none, spdm := SpdmSt.reset } }

/-- LS_FAILOVER: three periods have passed without a heartbeat of the active Lodestar; the standby holds it in reset and
takes over; the open session ends (R400, R438 Table 8). -/
def execLsFailover (s : State) : Host.Outcome State Fault Refusal :=
  .next (
    if s.su.stage < 3 ∨ s.su.hold ∨ s.su.fail = 1 ∨ !peerAlive s ∨ s.now < s.rec_.hbTick + 37500 then s
    else
      let new := 1 - s.hx.activeLs
      let last := s.rec_.hbSeq
      let r := s.rec_
      let s := requeueRecords s r.posted
      let s := { s with
        hx := { s.hx with activeLs := new }
        rec_ := { r with held := r.held.set (1 - new) true, failovers := (r.failovers + 1) % 65536
                         hbSeq := r.peerSeq, hbTick := s.now, peerSeq := r.hbSeq, peerTick := none, posted := [] }
        sec := { s.sec with meas := s.sec.standby, unsent := [] } }
      let s := interruptAmend s
      let s := sendChartMsg (beatDies (dropRequests s) s.rec_.hbSeq)
      let s := measEvent s 3 0 0 0 []
      closeSession (globalDirty (postErr s (28 + new) 2 0x0901 (28 + new) 0 (toLE 8 last))))

/-- LS_PEER_LOST: the active Lodestar misses three heartbeats of the standby and holds it in reset (R439). -/
def execLsPeerLost (s : State) : Host.Outcome State Fault Refusal :=
  .next (
    match s.rec_.peerTick with
    | none => s
    | some t =>
      if !lsAlive s ∨ s.now < t + 37500 then s
      else
        let p := 1 - s.hx.activeLs
        let s := { s with rec_ := { s.rec_ with held := s.rec_.held.set p true, peerTick := none } }
        postErr s (lsDie s) 2 0x0902 (28 + p) 0 (toLE 8 s.rec_.peerSeq))

/-! Orphan fences (R440) -/

/-- ORPHAN_FENCE: 625,000 ticks have passed since a die's wake controller last had a heartbeat; the die fences itself
(R440 Table 9). The meter is unaffected; the Lodestars themselves have no entry in the table. -/
def execOrphanFence (i : DieIdx) (s : State) : Host.Outcome State Fault Refusal :=
  .next (
    let w := getW s i.val
    if w.wkState.toNat.testBit 4 ∨ s.su.stage < 3 ∨ s.su.hold ∨ s.now < w.hbMark + 625000 ∨ i.val = 28 ∨ i.val = 29 ∨ i.val = 30 then s
    else
      let s := postErr (setWk s i.val 4 true) i.val 2 0x0303 i.val 0 (toLE 8 w.hbSeq)
      if i.val < 16 then domainFence s i.val 3 id
      else if i.val < 28 then
        [2 * (i.val - 16), 2 * (i.val - 16) + 1].foldl idlePort s
      else health (globalDirty { s with hx := { s.hx with stopped := true } }))

/-! Availability (R441, R442) -/

/-- Constellation k fails to hold its minimum capacity (R59). -/
def constShort (s : State) (k : Constel) : Bool :=
  decide (((List.range 1024).filter (fun t => k.tiles.testBit t && !fenced s (t / 64) && !(getT s t).held)).length < k.minTiles)

/-- LS_SHORT.MASK (R444). -/
def shortMask (s : State) : Nat :=
  match s.chart with
  | none => 0
  | some c => maskOf 64 (fun i => c.consts.any (fun k => k.id == i && constShort s k))

/-- Some declared constellation fails to hold its minimum capacity. -/
def anyShort (s : State) : Bool := match s.chart with | some c => c.consts.any (constShort s) | none => false

/-- Conditions that Table 10 excludes: start-up, a full load, an amendment that quiesces, M2, a wipe. -/
def uncounted (s : State) : Bool :=
  s.su.hold || decide (s.su.stage < 9) || s.qf.amending.isSome || decide (s.pw.mstate = 2) || s.sec.wiping

/-- LS_AVAIL.TICKS after one AON tick of the active Lodestar (R442). -/
def availTick (s : State) : State :=
  if lsAlive s && !uncounted s && anyShort s then { s with rec_ := { s.rec_ with avail := s.rec_.avail + 1 } } else s

/-! Registers (R444) -/

/-- LS_RECOVERY. -/
def lsRecovery (s : State) : Word :=
  let p := 1 - s.hx.activeLs
  let peer := if s.rec_.absent.getD p false then 2 else if s.rec_.held.getD p false then 1 else 0
  toW (s.rec_.failovers % 65536 * 2 ^ 48 + peer * 64)

/-- LS_FENCE_STAT. -/
def fenceStat (s : State) : Word := toW (s.rec_.failed * 2 ^ 32 + s.rec_.passed * 65536 + s.rec_.busy)

/-- WK_ERRQ of a die. -/
def wkErrq (s : State) (i : Nat) : Word :=
  let w := getW s i
  toW (w.nextSeq % 2 ^ 32 * 2 ^ 32 + w.lost % 65536 * 65536 + w.errQ.length)

end Machine
end Sys2Proof
end

