-- ==== Sys2Proof/Machine/TileEvents.lean ====
section
/-!
DEFINITION. Events of a tile's contexts and memory side: responses, response-fault and interrupt entry, the context
timer, acknowledgements (R81, R108, R109, R119, R142), the merge buffer's commit and drain, cache fills and the range
engine (R221 to R231).
-/

namespace Sys2Proof
namespace Machine

/-! Responses -/

/-- The fault of a scalar access's pieces: the lower half first (R79, R109). -/
def pieceFault (l : LoadEnt) : Option RespFault :=
  (l.pieces.zipIdx.find? (fun p => p.1.code != 0)).map (fun p =>
    { seq := l.seq, code := p.1.code, pc := l.pc, addr := p.1.addr, seg := l.seg
      access := (match l.kind with | .load _ _ => 1 | _ => 3), half := p.2 == 1, elem := none })

/-- Serve a load or atomic whose merge-buffer entries have drained (R226), if the tile may send (R30) and no earlier
access of the context to the same bytes still waits (R172). -/
def serveLate (s : State) (t : Nat) (c : CtxId) (l : LoadEnt) : State :=
  let T := getT s t
  let C := T.ctx[c]
  let seg : SegId := cix l.seg
  let put := fun (T : Tile) (ps : List Piece) =>
    let C := T.ctx[c]
    tileSetC T c { C with loads := C.loads.map (fun x => if x.seq = l.seq ∧ x.kind = l.kind then { x with pieces := ps } else x) }
  match l.kind with
  | .sched => s
  | .load _ _ =>
    let r := servePieces T (.load c.val l.seq) l.pieces (hintOf C seg) (permOk C.sega[seg] 2) (!T.det) (prefetchOk s C seg)
    if heldBack T c l.seq l.pieces || outstanding r.1 > 256 then s else setT s t (put r.1 r.2)
  | k =>
    match l.pieces.head? with
    | some p =>
      let T' := sendAtomic T (.load c.val l.seq) p.addr p.n (hintOf C seg) k
      if heldBack T c l.seq l.pieces || outstanding T' > 256 then s else setT s t T'
    | none => s

/-- A request of the access is on its way. -/
def requested (T : Tile) (c : CtxId) (seq : Nat) : Bool := T.reads.any (fun r => r.owner == .load c.val seq)

/-- LOAD_RESPONSE: the k-th pending access of the context has every byte it needs; its result or fault is held until
its shadow has ended (R81, R109). An access that still has to be sent is sent. -/
def execLoadResponse (t : TileId) (c : CtxId) (k : Nat) (s : State) : Host.Outcome State Fault Refusal :=
  .next (
    let T := getT s t
    let C := T.ctx[c]
    match C.loads[k]? with
    | none => s
    | some l =>
      if l.data.isSome || l.fault.isSome || l.kind == .sched || !l.waits.isEmpty then s
      else if !(l.pieces.all pieceDone) then
        (if requested T c l.seq then s else serveLate s t c l)
      else
        let f := pieceFault l
        let v := ofLE (l.pieces.flatMap (fun p => p.bytes.map (fun b => b.getD 0#8)))
        let l' := { l with fault := f, data := if f.isSome then none else some (kindValue l.kind v) }
        let C := { C with loads := C.loads.set k l' }
        let C := if C.pend.isNone then retire C else C
        tryEnter (setC s t c C) t c)

/-- A context can leave its instruction stream at this boundary: its tile runs, it has a launch and is not halted (R105,
R107, R328). -/
def atBoundary (s : State) (t : Nat) (c : CtxId) : Bool :=
  let T := getT s t
  let C := T.ctx[c]
  T.tstate == .t0 && !T.held && (C.dbg == 0 || C.dbg == 2) && C.pend.isNone && C.run != .idle && C.run != .halted && C.run != .runtime

/-- The entry for the response faults that are due; TL_EPC is the instruction at this boundary (R109). -/
def takeRespFault (s : State) (t : Nat) (c : CtxId) : State :=
  let C := getC s t c
  match C.rfaults.head? with
  | none => s
  | some f =>
    raiseEntry s t c { code := f.code, kind := 2, info := 0, seg := f.seg, access := f.access, half := f.half
                       epc := C.pc, esrc := 0, target := none, vstart := wfld C.vstart 3 0, path := C.tgpath }

/-- RESPONSE_FAULT_ENTRY: the response faults that have arrived and whose shadow has ended are taken (R109, R110). -/
def execResponseFaultEntry (t : TileId) (c : CtxId) (s : State) : Host.Outcome State Fault Refusal :=
  .next (
    if !atBoundary s t c || (getC s t c).run != .running || laneChecking (getT s t) c then s
    else
      let s1 := settleLane s t c
      if (getC s1 t c).rfaults.isEmpty then s else takeRespFault s1 t c)

/-- The resumable lane-engine instructions (R141). -/
def resumable (i : Instr) : Bool :=
  match i with
  | .vmvXS .. => false | .vmvSX .. => false | .vreduceInt .. => false | .vreduceFp .. => false
  | .vrgather .. => false | .vslideup .. => false | .vslidedown .. => false | .vcompress .. => false
  | .vamo .. => false | .vshape .. => false
  | _ => true

/-- A producer with a chain latency: its consumers follow group by group, and it finishes with its last group (R127, 05
Table 1). -/
def chains (e : LaneEnt) : Bool :=
  match e.ins with
  | .vfdivVfsqrt .. => false | .vreduceInt .. => false | .vreduceFp .. => false | .vslideup .. => false
  | .vslidedown .. => false | .vrgather .. => false | .vcompress .. => false | .vmvXS .. => false | .vamo .. => false
  | .vload _ _ _ rs1 seg _ mode => useSeg seg rs1 == 3 && mode == .unit
  | _ => true

/-- The last instruction issued, where it is a resumable lane-engine instruction that has not finished when its group in
progress, or its first group, is performed (R142): the entry and the next group not performed. An instruction with a
completion latency is unfinished with all its groups performed too; it is returned to where the next group's number is
one that R141 admits, and runs to completion otherwise (assumption 116). -/
def stopPoint (T : Tile) (C : Ctx) : Option (LaneEnt × Nat) :=
  match C.lastLane with
  | none => none
  | some q =>
    match T.lane.find? (fun e => e.seq == q) with
    | none => none
    | some e =>
      let n := if e.next = e.first ∧ e.next < e.groups then e.first + 1 else e.next
      if resumable e.ins ∧ (n < e.groups ∨ (n = e.groups ∧ chains e = false ∧ n ≤ 7)) then some (e, n) else none

/-- The loop counts and the thread group as they were before the issue of a lane-engine instruction that an entry or a
halt returns to (R116, R164). -/
def unadvance (C : Ctx) (e : LaneEnt) : Ctx :=
  { C with lpcount := (C.lpcount.set 0 e.lp0).set 1 e.lp1, tpc := e.tpc0, yielded := e.yielded0, tgspin := e.spin0
           lastLane := none }

/-- Stop a lane-engine instruction at group n: it finishes there, and its context is as before its issue (R116, R142,
R164). -/
def stopLane (s : State) (t : Nat) (c : CtxId) (e : LaneEnt) (n : Nat) : State :=
  modT s t (fun T =>
    let C := T.ctx[c]
    tileSetC { T with lane := T.lane.map (fun x => if x.seq = e.seq then { x with groups := n, stopped := true } else x) } c
      (unadvance C e))

/-- INTERRUPT_ENTRY: the first enabled pending interrupt of the order of R108 is taken; a sleeping context's TL_EPC is
its waiting instruction (R105, R108, R112, R120, R142). -/
def execInterruptEntry (t : TileId) (c : CtxId) (s : State) : Host.Outcome State Fault Refusal :=
  .next (
    if !atBoundary s t c then s
    else
      let C := getC s t c
      match takeable C with
      | none => s
      | some i =>
        let entry := fun (s : State) (epc vstart : Nat) (path : BitVec 128) =>
          raiseEntry s t c { code := 0x20 + i, kind := 2, info := 0, seg := 0, access := 0, half := false, epc := epc
                             esrc := 0, target := none, vstart := vstart, path := path }
        match (if C.run = .running then stopPoint (getT s t) C else none) with
        | some (e, n) =>
          if C.rfaults.isEmpty then entry (stopLane s t c e n) e.pc n e.path else s
        | none =>
          if C.run = .running then
            let s1 := settleLane s t c
            let C := getC s1 t c
            if C.rfaults.isEmpty then entry s1 C.pc (wfld C.vstart 3 0) C.tgpath else s
          else if C.rfaults.isEmpty then entry s C.pc (wfld C.vstart 3 0) C.tgpath
          else takeRespFault s t c)

/-- CTX_TIMER_EXPIRY: on the tick that makes TL_CTXTIMER zero, TL_IPEND.TIMER is set (R119). -/
def execCtxTimerExpiry (t : TileId) (c : CtxId) (s : State) : Host.Outcome State Fault Refusal :=
  .next (
    let C := getC s t c
    if C.timerAt = 0 ∨ s.now < C.timerAt ∨ (getT s t).tstate = .t3 then s
    else setC s t c { C with timerAt := 0, ipend := C.ipend ||| 1 })

/-- Add a response fault to a context: one fault per instruction, naming the lowest failing element (R109, R139). -/
def addFault (s : State) (t : Nat) (c : CtxId) (f : RespFault) : State :=
  modC s t c (fun C =>
    if C.run = .halted ∨ C.run = .idle then C
    else
      match C.rfaults.find? (fun g => g.seq == f.seq) with
      | none => { C with rfaults := C.rfaults ++ [f] }
      | some g =>
        let lower := match f.elem, g.elem with | some a, some b => decide (a.1 < b.1) | _, _ => false
        if lower then { C with rfaults := C.rfaults.map (fun x => if x.seq = f.seq then f else x) } else C)

/-- STORE_COHERENCE_ACK: the k-th write of the tile, performed at its point of coherence, is acknowledged; a failed one
is a response fault of each store that it carries, with that store's own address and half (R109, R119, R139, R225). -/
def execStoreCoherenceAck (t : TileId) (k : Nat) (s : State) : Host.Outcome State Fault Refusal :=
  .next (
    let T := getT s t
    match T.writes[k]? with
    | none => s
    | some w =>
      match w.status with
      | none => s
      | some st =>
        let s := setT s t { T with writes := T.writes.eraseIdx k }
        let s := if st = 0 then s else w.who.foldl (fun s x =>
          addFault s t (cix x.ctx)
            { seq := x.seq, code := st, pc := x.pc, addr := x.addr, seg := x.seg, access := 2, half := x.half
              elem := w.lane.map (fun p => (p.2 / 16, p.2 % 16)) }) s
        tryEnterAll s t)

/-! The merge buffer's events (R225) -/

/-- MB_OPEN_TIMEOUT: the k-th entry has been open 16 cycles and commits (R225). -/
def execMbOpenTimeout (t : TileId) (k : Nat) (s : State) : Host.Outcome State Fault Refusal :=
  .next (
    match (getT s t).mb[k]? with
    | some e => if e.cseq = 0 then modT s t (fun T => mbCommit T (fun x => x.seq == e.seq)) else s
    | none => s)

/-- The entry of least commit order among those a test selects. -/
def firstCommitted (T : Tile) (p : MBEnt → Bool) : Option MBEnt :=
  (T.mb.filter (fun e => e.cseq != 0 && p e)).foldl (fun (m : Option MBEnt) e =>
    match m with
    | none => some e
    | some o => if e.cseq < o.cseq then some e else some o) none

/-- An atomic that waits for no entry any more, and has not been sent, touches the entry: the entry's stores are later,
and drain behind it (R172, R227). -/
def behindAtomic (T : Tile) (e : MBEnt) : Bool :=
  T.ctx.toList.zipIdx.any (fun x => x.1.loads.any (fun l => atomicUnsent T x.2 l && l.waits.isEmpty
    && l.pieces.any (fun p => mbTouches e p.addr p.n)))

/-- MB_DRAIN: the next committed entry in commit order begins its drain and counts as a transaction (R30, R225). -/
def execMbDrain (t : TileId) (s : State) : Host.Outcome State Fault Refusal :=
  .next (
    let T := getT s t
    match firstCommitted T (fun e => !e.draining) with
    | none => s
    | some e =>
      if outstanding T ≥ 256 || behindAtomic T e then s
      else setT s t { T with mb := T.mb.map (fun x => if x.seq = e.seq then { x with draining := true } else x) })

/-- The tile cache and L1D take an entry's bytes; a `dzl` allocates its line with four zero sectors (R225, R228). -/
def drainUpdate (T : Tile) (e : MBEnt) : Tile :=
  if e.dzl then
    { T with tc := if cacheable e.addr then
        (List.range 4).foldl (fun m i => cacheFill1 m (tcSets T) 8 (e.addr / 32 + i) (List.replicate 32 0#8) false) T.tc
        else T.tc
             l1d := (List.range 4).foldl (fun m i => cacheDrop m 64 (e.addr / 32 + i)) T.l1d }
  else { T with tc := cacheUpd T.tc (tcSets T) (e.addr / 32) e.bytes, l1d := cacheUpd T.l1d 64 (e.addr / 32) e.bytes }

/-- Loads and atomics that wait for nothing more are served, in program order (R226). -/
def serveReleased (s : State) (t : Nat) (was : Nat) : State :=
  (List.range 8).foldl (fun s i =>
    let c : CtxId := cix i
    ((getC s t c).loads.filter (fun l => l.waits == [was])).foldl (fun s l =>
      let s := modC s t c (fun C => { C with loads := C.loads.map (fun x => if x.seq = l.seq then { x with waits := [] } else x) })
      serveLate s t c { l with waits := [] }) s) s

/-- DRAIN_ACK: the oldest draining entry's bytes reach the caches, the entry is freed, and its write leaves for its
point of coherence; loads that waited for it are served. A fill of the sector still on its way installs nowhere
(R225, R226). -/
def execDrainAck (t : TileId) (s : State) : Host.Outcome State Fault Refusal :=
  .next (
    let T := getT s t
    match firstCommitted T (fun e => e.draining) with
    | none => s
    | some e =>
      let T := staleReads (drainUpdate T e) e.addr e.bytes.length
      let w : WriteReq := { seq := e.seq, ord := T.seq + 1, addr := e.addr, bytes := e.bytes, hint := e.hint, who := e.who
                            lane := none, txns := 1, status := none }
      let T := { T with mb := T.mb.filter (fun x => x.seq != e.seq), writes := T.writes ++ [w], seq := T.seq + 1 }
      let s := serveReleased (setT s t T) t e.seq
      (List.range 8).foldl (fun s i => modC s t (cix i) (fun C =>
        { C with loads := C.loads.map (fun l => { l with waits := sDel l.waits e.seq }) })) s)

/-! Cache fills (R221, R231) -/

/-- Deliver an answered read to the access it belongs to; a fetch's poison or fault is held for its context (R243). -/
def deliver (T : Tile) (r : ReadReq) (bs : List Byte) (pois : Bool) (code : Nat) : Tile :=
  let fill := fun (p : Piece) => pieceFill p r.addr bs pois code r.n
  match r.owner with
  | .load c seq =>
    let C := T.ctx[cix c]
    tileSetC T (cix c) { C with loads := C.loads.map (fun l => if l.seq = seq then { l with pieces := l.pieces.map fill } else l) }
  | .lane seq => { T with lane := T.lane.map (fun e => if e.seq = seq then
      { e with pieces := e.pieces.map (fun p => if r.elem.isNone ∨ r.elem = some p.elem then fill p else p) } else e) }
  | .fetch c =>
    let C := T.ctx[cix c]
    let code := if code ≠ 0 then code else if pois then 0x10 else 0
    tileSetC T (cix c) { C with fetchBad := if code ≠ 0 then some (r.addr, code)
                                            else if C.fetchBad.any (fun x => x.1 == r.addr) then none else C.fetchBad }
  | .prefetch _ => T

/-- Install an answered read in the caches its path passes through, unless an invalidation crossed it (R221, R231). -/
def install (T : Tile) (r : ReadReq) (bs : List Byte) (pois : Bool) : Tile :=
  if r.stale || r.atomic.isSome then T
  else
    let sec := r.addr / 32
    { T with tc := if r.tc then cacheFill1 T.tc (tcSets T) 8 sec bs pois else T.tc
             l1d := if r.l1d then cacheFill1 T.l1d 64 4 sec bs pois else T.l1d
             l1i := if r.l1i then cacheFill1 T.l1i 64 4 sec bs pois else T.l1i }

/-- The fetch of the sector at a context's PC: from the L1I, then the tile cache, then requested; a miss at the tile
cache prefetches the next line for it (R221, R222). A tile store window is in no cache: its instruction is requested by
itself (R77). A sector that the tile's own stores are still to change waits for them: their entries commit (R91). -/
def fetchSector (s : State) (t : Nat) (c : CtxId) : State :=
  let T := getT s t
  let C := T.ctx[c]
  let a := segAddr C 0 C.pc
  let sec := a / 32
  let asked := fun (x : Nat) => T.reads.any (fun r => r.addr == x && r.owner == .fetch c.val && !r.stale)
  if codePending T (sec * 32) 32 then setT s t (mbCommit T (fun e => mbTouches e (sec * 32) 32))
  else if !cacheable a then
    if outstanding T ≥ 256 || asked a then s
    else setT s t (addRead T (.fetch c.val) a 4 (hintOf C 0) (permOk C.sega[(0 : SegId)] 2) false false false)
  else
  match (if T.det then none else cacheLook T.l1i 64 sec) with
  | some _ => setT s t { T with l1i := cacheTouch T.l1i 64 sec }
  | none =>
    match cacheLook T.tc (tcSets T) sec with
    | some (b, p) =>
      setT s t { T with tc := cacheTouch T.tc (tcSets T) sec
                        l1i := if T.det then T.l1i else cacheFill1 T.l1i 64 4 sec b p }
    | none =>
      if outstanding T ≥ 256 || asked (sec * 32) then s
      else
        let w := permOk C.sega[(0 : SegId)] 2
        let T := addRead T (.fetch c.val) (sec * 32) 32 (hintOf C 0) w false (!T.det) true
        setT s t (prefetch T (sec / 4) (hintOf C 0) w false (prefetchOk s C 0 (sec / 4)))

/-- CACHE_FILL: an answered request is delivered and fills every level it passes through, or a fetch is served (R221). -/
def execCacheFill (t : TileId) (src : FillSrc) (s : State) : Host.Outcome State Fault Refusal :=
  .next (
    match src with
    | .fetch c => fetchSector s t c
    | .req k =>
      let T := getT s t
      match T.reads[k]? with
      | none => s
      | some r =>
        match r.answer with
        | none => s
        | some (bs, pois, code) =>
          let T := { T with reads := T.reads.eraseIdx k }
          let T := deliver T r bs pois code
          setT s t (if code = 0 then install T r bs pois else T))

end Machine
end Sys2Proof
end

