-- ==== Sys2Proof/Machine/Security.lean ====
section
/-!
DEFINITION. Security, attestation, lifecycle and debug sessions (16 R378 to R401).
-/

namespace Sys2Proof
namespace Machine

/-- The Lodestar firmware answers management commands (R393, R447, R448). -/
def lsManaged (s : State) : Bool := lsAnswers s && decide (s.su.stage ≥ 2) && s.su.fail != 1

/-- The module serial (R391): the part's own. -/
def moduleSerial : Nat := Config.serial % 2 ^ 64

/-- Code of a transport in LS_DBG_STAT.TRANSPORT (R401). -/
def transportCode (x : Sideband) : Nat := match x with | .i3c => 1 | .jtag => 2

/-- Thirty-two unpredictable bytes (R3, R392). -/
def randomBytes (s : State) : List Byte × State :=
  ((List.range 32).map (fun i => Config.unwritten s.draws i), { s with draws := s.draws + 1 })

/-! Keys and firmware images -/

/-- PROVISION_ID: the identity key and the slot 0 certificates are made once, in MANUFACTURE; the public part is exported
(R379, R386). -/
def execProvisionId (x : Sideband) (s : State) : Host.Outcome State Fault Refusal :=
  .next (
    if !lsManaged s ∨ s.sec.lifecycle ≠ 0 ∨ s.sec.idKey.isSome then s
    else
      let n := s.sec.keyGens + 1
      emit { s with sec := { s.sec with idKey := some n, keyGens := n, certs := Config.certChain n } }
        (.sideband (transportCode x) (Config.publicKey n)))

/-- The checks of R381 on an image of a KIND against its SVN floor; LENGTH is 1 to 16 MiB (R380). -/
def imageOk (magic kind floor : Nat) (b : List Byte) : Bool :=
  let n := leAt b 0x0C 4
  leAt b 0 4 == magic && leAt b 4 2 == 1 && leAt b 6 2 == kind
    && allZero (slice b 0x18 40) && decide (1 ≤ n ∧ n ≤ 0x1000000) && b.length == 0x80 + n + 29792
    && slice b 0x40 64 == Config.shake256 (slice b 0x80 n)
    && Config.slhVerify Config.vendorKey (slice b 0 0x80) (slice b (0x80 + n) 29792)
    && decide (leAt b 8 4 ≥ floor)

/-- The checks on a module firmware image of KIND k + 1. -/
def fwOk (s : State) (k : Nat) (b : List Byte) : Bool := imageOk 0x5746584C (k + 1) (s.sec.floors.getD k 0) b

/-- The image of KIND k + 1 in slot n. -/
def fwImage (s : State) (k n : Nat) : List Byte := s.sec.slots.getD (2 * k + n) []

/-- VERSION of the image of KIND k + 1 in slot n, as PLDM reports it (R380). -/
def fwVersion (s : State) (k n : Nat) : Nat := leAt (fwImage s k n) 0x10 8

/-- FW_UPDATE: a PLDM update of KIND k + 1; a verified image goes to the slot not in use, which is marked current and takes
effect at the next restart of the Lodestar firmware; PLDM reports the versions (R380, R381). -/
def execFwUpdate (k : Fin 4) (image : List Byte) (s : State) : Host.Outcome State Fault Refusal :=
  .next (
    if !lsAnswers s ∨ !fwOk s k.val image then s
    else
      let n := 1 - s.sec.inUse.getD k.val 0
      let s := { s with sec := { s.sec with slots := s.sec.slots.set (2 * k.val + n) image, current := s.sec.current.set k.val n } }
      emit s (.fwVersion (k.val + 1) (fwVersion s k.val (1 - n)) (fwVersion s k.val n)))

/-! Attestation (R386) -/

/-- The responder of a target. -/
def spdmGet (s : State) (m : SpdmTarget) : SpdmSt := match m with | .lodestar => s.sec.spdm | .meter => s.fm.spdm
/-- The state with a responder replaced. -/
def spdmPut (s : State) (m : SpdmTarget) (x : SpdmSt) : State :=
  match m with
  | .lodestar => { s with sec := { s.sec with spdm := x } }
  | .meter => { s with fm := { s.fm with spdm := x } }
/-- The responder answers. -/
def spdmUp (s : State) (m : SpdmTarget) : Bool := match m with | .lodestar => lsManaged s | .meter => s.fm.on
/-- The identity key's number and the slot 0 chain of a target. -/
def spdmKey (s : State) (m : SpdmTarget) : Option Nat × List Byte :=
  match m with | .lodestar => (s.sec.idKey, s.sec.certs) | .meter => (s.fm.keys.map (·.1), s.fm.certs)

/-- A DMTF measurement block (DSP0274, assumption 87): index, specification 1, size, a value type with bit 7 set for a raw bit
stream, the value's size, the value. Which DMTF type a register has beside that is open. -/
def dmtfBlock (i : Nat) (v : List Byte) : List Byte :=
  toLE 1 i ++ toLE 1 1 ++ toLE 2 (v.length + 3) ++ toLE 1 (0x80 + Config.measType i % 128) ++ toLE 2 v.length ++ v

/-- A measurement block: its index and the 64 bytes, a raw bit stream (R386, R424). -/
def measBlock (s : State) (m : SpdmTarget) (i : Nat) : Option (List Byte) :=
  match m with
  | .lodestar => if 1 ≤ i ∧ i ≤ 8 then (s.sec.meas[i - 1]?).map (dmtfBlock i) else none
  | .meter => if i = 1 then some (dmtfBlock 1 s.fm.fwId) else none

/-- The blocks a request asks for: one, or with 0xFF all. -/
def measBlocks (s : State) (m : SpdmTarget) (i : Nat) : Option (List Byte) :=
  if i = 0xFF then some ((List.range 9).flatMap (fun j => (measBlock s m j).getD []))
  else measBlock s m i

/-- A response of more than DataTransferSize is kept and fetched by chunks. -/
def spdmLarge (x : SpdmSt) (bytes : List Byte) : SpdmAns × SpdmSt :=
  let h := (x.txHandle + 1) % 256
  (.large h, { x with tx := bytes, txHandle := h, txNext := 0 })

/-- A content with a fresh nonce and the signature over the transcript hash (R386). -/
def spdmSigned (s : State) (m : SpdmTarget) (x : SpdmSt) (content : List Byte) : SpdmAns × SpdmSt × State :=
  match (spdmKey s m).1 with
  | none => (.error .invalidRequest, x, s)
  | some k =>
    let (nonce, s) := randomBytes s
    let body := content ++ nonce
    let r := spdmLarge x (body ++ Config.slhSign k (Config.transcriptHash (x.transcript ++ body)))
    (r.1, r.2, s)

/-- A request of Table 5, but for those that carry chunks, or any other (R386). -/
inductive SpdmReq where
  | version
  | capabilities
  | algorithms
  | digests
  | certificate (slot off len : Nat)
  | challenge (slot : Nat) (nonce : List Byte)
  | measurements (index : Nat) (sign : Bool) (nonce : List Byte)
  | other
deriving DecidableEq, Repr

/-- What stands for a request in the transcript. -/
def spdmRecord : SpdmReq → List Byte
  | .version => [1#8]
  | .capabilities => [2#8]
  | .algorithms => [3#8]
  | .digests => [4#8]
  | .certificate slot off len => 5#8 :: (toLE 1 slot ++ toLE 2 off ++ toLE 2 len)
  | .challenge slot nonce => 6#8 :: (toLE 1 slot ++ nonce)
  | .measurements index sign nonce => 7#8 :: (toLE 1 index ++ toLE 1 (b2n sign) ++ nonce)
  | .other => [0#8]

/-- The portion of the slot 0 chain that a GET_CERTIFICATE asks for. -/
def spdmCertificate (s : State) (m : SpdmTarget) (x : SpdmSt) (slot off len : Nat) : SpdmAns × SpdmSt × State :=
  let c := (spdmKey s m).2
  if slot ≠ 0 ∨ off ≥ c.length then (.error .invalidRequest, x, s)
  else
    let p := (c.drop off).take len
    let left := c.length - off - p.length
    if p.length > 4096 then
      let r := spdmLarge x (p ++ toLE 2 left)
      (r.1, r.2, s)
    else (.certificate p left, x, s)

/-- The answer to a request, with the responder and the state after it (R386 Table 5). GET_VERSION begins the transcript
again. -/
def spdmServe (m : SpdmTarget) (req : SpdmReq) (s : State) (x : SpdmSt) : SpdmAns × SpdmSt × State :=
  let x := { x with transcript := x.transcript ++ spdmRecord req }
  match req with
  | .version => (.version, { SpdmSt.reset with version := true, transcript := spdmRecord req, txHandle := x.txHandle }, s)
  | .capabilities => (.capabilities 4096 65536 22 [.cert, .chal, .measSig, .chunk], { x with caps := true }, s)
  | .algorithms => (.algorithms .sha3x512 0 .slhDsaShake256s .iana, { x with algos := true }, s)
  | .digests => (if (spdmKey s m).2.isEmpty then .error .invalidRequest else .digests (Config.transcriptHash (spdmKey s m).2), x, s)
  | .certificate slot off len => spdmCertificate s m x slot off len
  | .challenge slot _ =>
    if slot ≠ 0 then (.error .invalidRequest, x, s) else spdmSigned s m x (Config.transcriptHash (spdmKey s m).2)
  | .measurements index sign _ =>
    match measBlocks s m index with
    | none => (.error .invalidRequest, x, s)
    | some b => if sign then spdmSigned s m x b else (.measurements b, x, s)
  | .other => (.error .unsupportedRequest, x, s)

/-- Answer a request at a version: 1.3 only (R386). -/
def spdmAnswer (m : SpdmTarget) (ver : BitVec 8) (s : State) (f : State → SpdmSt → SpdmAns × SpdmSt × State) : State :=
  if !spdmUp s m then s
  else if ver ≠ 0x13#8 then emit s (.spdm (m == .meter) (.error .versionMismatch))
  else
    let r := f s (spdmGet s m)
    emit (spdmPut r.2.2 m r.2.1) (.spdm (m == .meter) r.1)

/-- SPDM_GET_VERSION: the transcript begins again. The request's own version is not judged. -/
def execSpdmGetVersion (m : SpdmTarget) (s : State) : Host.Outcome State Fault Refusal :=
  .next (spdmAnswer m 0x13#8 s (spdmServe m .version))

/-- SPDM_GET_CAPABILITIES. -/
def execSpdmGetCapabilities (m : SpdmTarget) (ver : BitVec 8) (s : State) : Host.Outcome State Fault Refusal :=
  .next (spdmAnswer m ver s (spdmServe m .capabilities))

/-- SPDM_NEGOTIATE_ALGORITHMS: SHA3-512, SLH-DSA-SHAKE-256s as extended algorithm, and nothing else. -/
def execSpdmNegotiateAlgorithms (m : SpdmTarget) (ver : BitVec 8) (s : State) : Host.Outcome State Fault Refusal :=
  .next (spdmAnswer m ver s (spdmServe m .algorithms))

/-- SPDM_GET_DIGESTS: the digest of slot 0. -/
def execSpdmGetDigests (m : SpdmTarget) (ver : BitVec 8) (s : State) : Host.Outcome State Fault Refusal :=
  .next (spdmAnswer m ver s (spdmServe m .digests))

/-- SPDM_GET_CERTIFICATE: a portion of the slot 0 chain. -/
def execSpdmGetCertificate (m : SpdmTarget) (ver : BitVec 8) (slot : Fin 16) (off len : BitVec 16) (s : State) :
    Host.Outcome State Fault Refusal :=
  .next (spdmAnswer m ver s (spdmServe m (.certificate slot.val off.toNat len.toNat)))

/-- SPDM_CHALLENGE: the chain's digest, a nonce and the signature. -/
def execSpdmChallenge (m : SpdmTarget) (ver : BitVec 8) (slot : Fin 16) (nonce : List Byte) (s : State) :
    Host.Outcome State Fault Refusal :=
  .next (spdmAnswer m ver s (spdmServe m (.challenge slot.val nonce)))

/-- SPDM_GET_MEASUREMENTS: the registers as they stand when the response is built (R386). -/
def execSpdmGetMeasurements (m : SpdmTarget) (ver : BitVec 8) (index : BitVec 8) (sign : Bool) (nonce : List Byte) (s : State) :
    Host.Outcome State Fault Refusal :=
  .next (spdmAnswer m ver s (spdmServe m (.measurements index.toNat sign nonce)))

/-- The request that the bytes of a reassembled message are, by the codes and layouts of SPDM 1.3 (DSP0274, assumption 87); none
where they are no whole request of Table 5 that may come in chunks. -/
def spdmParse (b : List Byte) : Option SpdmReq :=
  let sign := (leAt b 2 1).testBit 0
  match leAt b 1 1 with
  | 0x81 => some .digests
  | 0x82 => if b.length < 8 then none else some (.certificate (leAt b 2 1 % 16) (leAt b 4 2) (leAt b 6 2))
  | 0x83 => if b.length < 36 then none else some (.challenge (leAt b 2 1 % 16) (slice b 4 32))
  | 0x84 => some .version
  | 0xE0 => if sign ∧ b.length < 36 then none else some (.measurements (leAt b 3 1) sign (if sign then slice b 4 32 else []))
  | 0xE1 => some .capabilities
  | 0xE3 => some .algorithms
  | 0x85 => none
  | 0x86 => none
  | _ => some .other

/-- A large request has arrived whole: it is served as if it had come in one message (R386). -/
def spdmWhole (m : SpdmTarget) (b : List Byte) (s : State) : State :=
  spdmAnswer m (BitVec.ofNat 8 (if leAt b 1 1 = 0x84 then 0x13 else leAt b 0 1)) s (fun s x =>
    match spdmParse b with
    | some req => spdmServe m req s x
    | none => (.error .invalidRequest, x, s))

/-- SPDM_CHUNK_SEND: one chunk of a large message, at most 65,536 bytes in all; the last is acknowledged with the answer to the
request (R386). -/
def execSpdmChunkSend (m : SpdmTarget) (ver : BitVec 8) (handle : BitVec 8) (seq : Nat) (last : Bool) (bytes : List Byte)
    (s : State) : Host.Outcome State Fault Refusal :=
  .next (
    let x := spdmGet s m
    let fresh := seq == 0
    let got := if fresh then bytes else x.rx ++ bytes
    let bad := (!fresh && (x.rxHandle != handle.toNat || x.rxNext != seq)) || decide (got.length > 65536) || decide (bytes.length > 4096)
    let s1 := spdmAnswer m ver s (fun s x =>
      if bad then (.error .invalidRequest, { x with rx := [], rxNext := 0 }, s)
      else if last then (.chunkAck handle.toNat seq, { x with rx := [], rxNext := 0 }, s)
      else (.chunkAck handle.toNat seq, { x with rx := got, rxHandle := handle.toNat, rxNext := seq + 1 }, s))
    if bad ∨ !last ∨ ver ≠ 0x13#8 then s1 else spdmWhole m got s1)

/-- SPDM_CHUNK_GET: the next chunk of the large response held. -/
def execSpdmChunkGet (m : SpdmTarget) (ver : BitVec 8) (handle : BitVec 8) (seq : Nat) (s : State) :
    Host.Outcome State Fault Refusal :=
  .next (spdmAnswer m ver s (fun s x =>
    if x.tx.isEmpty ∨ x.txHandle ≠ handle.toNat ∨ x.txNext ≠ seq then (.error .invalidRequest, x, s)
    else
      let rest := x.tx.drop 4096
      (.chunk handle.toNat seq rest.isEmpty (x.tx.take 4096), { x with tx := rest, txNext := seq + 1 }, s)))

/-- SPDM_UNSUPPORTED_REQUEST: a request not in Table 5 (R386). -/
def execSpdmUnsupportedRequest (m : SpdmTarget) (ver : BitVec 8) (s : State) : Host.Outcome State Fault Refusal :=
  .next (spdmAnswer m ver s (spdmServe m .other))

/-! Challenges and tokens (R391 to R393) -/

/-- GET_CHALLENGE: the later of two is the valid one (R392, R400). -/
def execGetChallenge (x : Sideband) (s : State) : Host.Outcome State Fault Refusal :=
  .next (
    if !lsManaged s then s
    else
      let (b, s) := randomBytes s
      emit { s with sec := { s.sec with chal := some (b, s.now) } } (.sideband (transportCode x) b))

/-- CHALLENGE_EXPIRY: 750,000,000 ticks from its issue (R392). -/
def execChallengeExpiry (s : State) : Host.Outcome State Fault Refusal :=
  .next (
    match s.sec.chal with
    | some (_, t) => if s.now ≥ t + 750000000 then { s with sec := { s.sec with chal := none } } else s
    | none => s)

/-- Check 1: the form of a token of a KIND (R391, R393). -/
def tokenForm (b : List Byte) (kind : Nat) : Bool :=
  b.length == 29920 && leAt b 0 4 == 0x5444584C && leAt b 4 2 == 1 && leAt b 6 1 == kind && decide (leAt b 7 1 < 2)
    && leAt b 0x3A 2 == 0 && allZero (slice b 0x40 64)
    && (if kind = 0 then decide (1 ≤ leAt b 0x38 1) && decide (leAt b 0x38 1 ≤ 3) && leAt b 0x39 1 == 0 && decide (leAt b 0x3C 4 ≥ 1)
        else leAt b 0x30 8 == 0 && leAt b 0x38 1 == 0 && leAt b 0x3C 4 == 0
          && (if kind = 2 then decide (leAt b 0x39 1 ≤ 3) else leAt b 0x39 1 == 0))

/-- The challenge is the outstanding one and has not expired (R392). -/
def chalValid (c : Option (List Byte × Nat)) (now : Nat) (b : List Byte) : Bool :=
  match c with | some (v, t) => v == b && decide (now < t + 750000000) | none => false

/-- The key of a signer: 1 owner, 2 vendor. -/
def signerKey (s : State) (signer : Nat) : List Byte := if signer = 1 then s.sec.ownerKey.getD [] else Config.vendorKey

/-- Checks 1 to 4 of Table 10. -/
def tokenChecks (s : State) (b : List Byte) (kind signer : Nat) : Option Nat :=
  if !tokenForm b kind then some 1
  else if leAt b 8 8 ≠ moduleSerial then some 2
  else if !chalValid s.sec.chal s.now (slice b 0x10 32) then some 3
  else if (signer = 1 ∧ s.sec.ownerKey.isNone) ∨ !Config.slhVerify (signerKey s signer) (slice b 0 0x80) (slice b 0x80 29792) then some 4
  else none

/-- A refusal: the code is shown, and from check 3 on the challenge is consumed (R393). -/
def refuseToken (s : State) (code : Nat) : State :=
  { s with sec := { s.sec with refusal := code, chal := if code ≥ 3 then none else s.sec.chal } }

/-- The debug signer of a lifecycle state (R387 Table 6). -/
def stateSigner (lc : Nat) : Nat := if lc = 1 ∨ lc = 2 then 1 else 2

/-! Debug sessions (R390 to R397) -/

/-- Check 6: the ceiling of the Chart in force. -/
def underCeiling (s : State) (level mask : Nat) : Bool :=
  match s.chart with
  | none => true
  | some c => (List.range 64).all (fun i => !mask.testBit i || (i ≥ c.constCount && mask == 2 ^ 64 - 1) || decide (level ≤ c.debugMax.getD i 0))

/-- Check 7: a session of the level may be opened in the power state (R397 Table 11). -/
def powerPermits (s : State) (level : Nat) : Bool :=
  if level = 1 then true
  else if level = 2 then s.su.mainOk && s.pw.mstate != 2
  else s.su.mainOk && s.pw.mstate == 1

/-- Every architectural and memory state is destroyed, every tile is in T3 (R390, R397). -/
def scanDestroy (s : State) : State :=
  let s := (List.range 1024).foldl (fun s t => if (getT s t).tstate = .t3 then s else tileOff s t) s
  forgetRegions s (List.range 1024)

/-- The session opens (R394): register 5 is extended, SESSIONS rises. -/
def openSession (s : State) (e : Session) : State :=
  let s := { s with sec := { s.sec with session := some { e with at_ := s.now }, audit := none
                                        sessions := (s.sec.sessions + 1) % 65536 } }
  let s := measEvent s 2 e.level e.signer e.mask e.chal
  if e.level = 3 then scanDestroy s else s

/-- DEBUG_TOKEN: a KIND 0 token is checked under Table 10; in DEPLOYED the audit event goes to the meter first (R393 to
R395). -/
def execDebugToken (x : Sideband) (b : List Byte) (s : State) : Host.Outcome State Fault Refusal :=
  .next (
    if !lsManaged s then s
    else
      let signer := stateSigner s.sec.lifecycle
      let level := leAt b 0x38 1
      let mask := leAt b 0x30 8
      match tokenChecks s b 0 signer with
      | some k => refuseToken s k
      | none =>
        if (level = 3 ∧ (s.sec.lifecycle = 1 ∨ s.sec.lifecycle = 2)) ∨ (s.sec.lifecycle = 3 ∧ !s.sec.wiped) then refuseToken s 5
        else if !underCeiling s level mask then refuseToken s 6
        else if !powerPermits s level then refuseToken s 7
        else if s.sec.session.isSome ∨ s.sec.audit.isSome then refuseToken s 8
        else if level = 3 ∧ !(drained s ∧ s.pw.mstate = 1) then refuseToken s 9
        else
          let e : Session := { level := level, mask := mask, transport := transportCode x, hold := level = 2 ∧ (leAt b 7 1).testBit 0
                               audited := s.sec.lifecycle = 2, ticks := leAt b 0x3C 4 * 12500, at_ := s.now, signer := signer
                               chal := slice b 0x10 32 }
          let s := { s with sec := { s.sec with chal := none } }
          if s.sec.lifecycle = 2 then
            { s with sec := { s.sec with audit := some e }, fm := { s.fm with debugMsgs := s.fm.debugMsgs ++ [(level, mask, signer)] } }
          else openSession s e)

/-- Check 10 fails: no acknowledgement within 1,250,000 ticks (R393). -/
def auditTimeout (s : State) : State :=
  match s.sec.audit with
  | some e => if s.now > e.at_ + 1250000 then { s with sec := { s.sec with audit := none, refusal := 0x0A } } else s
  | none => s

/-- METER_AUDIT_ACK: the meter's acknowledgement opens the session; a late one is discarded (R395, R400). -/
def execMeterAuditAck (s : State) : Host.Outcome State Fault Refusal :=
  .next (
    if s.fm.acks = 0 then s
    else
      let s := auditTimeout { s with fm := { s.fm with acks := s.fm.acks - 1 } }
      match s.sec.audit with
      | some e => openSession s e
      | none => s)

/-- DEBUG_CLOSE, over the transport that opened the session (R393, R394). -/
def execDebugClose (x : Sideband) (s : State) : Host.Outcome State Fault Refusal :=
  .next (if s.sec.session.any (fun e => e.transport == transportCode x) then closeSession s else s)

/-- SESSION_EXPIRY: DURATION_MS after the session opened (R394). -/
def execSessionExpiry (s : State) : Host.Outcome State Fault Refusal :=
  .next (if s.sec.session.any (fun e => decide (s.now ≥ e.at_ + e.ticks)) then closeSession s else s)

/-- A tile is in a session's scope (R390). -/
def inScope (s : State) (mask t : Nat) : Bool :=
  mask == 2 ^ 64 - 1 || (match constOfTile s t with | some k => mask.testBit k.id | none => false)

/-- An INVASIVE session reaches tile t. -/
def invasive (s : State) (t : Nat) : Bool := s.sec.session.any (fun e => e.level == 2 && inScope s e.mask t)

/-- DEBUG_HALT: a context in scope stops at an instruction boundary, or at an element-group boundary of a resumable
lane-engine instruction, with LN_VSTART at the next group; a tile in T1 or T2 wakes (R107, R142, R394, R396). -/
def execDebugHalt (t : TileId) (c : CtxId) (s : State) : Host.Outcome State Fault Refusal :=
  .next (
    let C := getC s t c
    if !invasive s t ∨ (getT s t).tstate = .t3 ∨ (getT s t).held ∨ C.dbg = 1 ∨ C.pend.isSome ∨ C.run = .idle then s
    else
      let s := if (getT s t).tstate = .t0 then s else reclock s t .t0 (tileLevel s t) (levelDuty (tileLevel s t))
      match (if C.run = .running then stopPoint (getT s t) C else none) with
      | some (e, n) =>
        modC (stopLane s t c e n) t c (fun C =>
          let C := { C with dbg := 1, pc := e.pc, vstart := wset C.vstart 3 0 n }
          if e.tg then { setThreads C e.path (fun _ => e.pc) with tgpath := e.path } else C)
      | none => modC s t c (fun C => { C with dbg := 1 }))

/-- DEBUG_RESUME: a halted context goes on, or issues one instruction (R390). -/
def execDebugResume (t : TileId) (c : CtxId) (one : Bool) (s : State) : Host.Outcome State Fault Refusal :=
  .next (
    if invasive s t ∧ (getC s t c).dbg = 1 then modC s t c (fun C => { C with dbg := if one then 2 else 0 }) else s)

/-! Lifecycle (R387 to R389) -/

/-- The signer that Table 7 names for a transition; for any other, the state's own. -/
def transitionSigner (a b : Nat) : Nat :=
  if (a = 1 ∧ b = 2) ∨ (a = 2 ∧ b = 1) ∨ ((a = 1 ∨ a = 2) ∧ b = 3) then 1
  else if (a = 0 ∧ b = 1) ∨ (a = 3 ∧ b = 0) then 2 else stateSigner a

/-- A transition of Table 7 with its condition. -/
def transitionOk (s : State) (b : Nat) : Bool :=
  match s.sec.lifecycle, b with
  | 0, 1 => s.sec.idKey.isSome && drained s
  | 1, 2 => true
  | 2, 1 => true
  | 1, 3 => true
  | 2, 3 => true
  | 3, 0 => s.sec.wiped
  | _, _ => false

/-- The Chart in force is withdrawn: no tile runs, nor does the runtime's image, STATE reads NO_CHART. -/
def withdrawChart (s : State) : State :=
  let s := (List.range 1024).foldl (fun s t => if (getT s t).tstate = .t3 then s else tileOff (collectEnd (stopTile s t endFault) t) t) s
  globalDirty { s with
    chart := none, rt := RtSt.reset, pw := { s.pw with level := [], est := [] }
    sec := { s.sec with running := s.sec.running.set 3 0 }
    qf := { s.qf with amending := none, coords := [] }
    ch := { s.ch with state := 0, chainLen := 0 } }

/-- LIFECYCLE with a KIND 2 token; the command to OWNED carries the owner key (R388). An open session ends first, a SCAN session
with its warm reset, before the record extends register 5 (R384, R394). -/
def execLifecycle (b : List Byte) (owner : List Byte) (s : State) : Host.Outcome State Fault Refusal :=
  .next (
    if !lsManaged s then s
    else
      let a := s.sec.lifecycle
      let target := leAt b 0x39 1
      match tokenChecks s b 2 (transitionSigner a target) with
      | some k => refuseToken s k
      | none =>
        if !transitionOk s target then refuseToken s 5
        else if target = 1 ∧ a = 0 ∧ owner.length ≠ 64 then refuseToken s 1
        else
          let s := closeSession { s with sec := { s.sec with chal := none, audit := none } }
          let s := { s with sec := { s.sec with lifecycle := target } }
          let s := if a = 0 then
              let s := withdrawChart s
              { s with sec := { s.sec with ownerKey := some owner }, ch := { s.ch with slots := ChSt.reset.slots, current := 0 } }
            else if target = 3 then
              let s := withdrawChart s
              { s with sec := { s.sec with wiping := true } }
            else if target = 0 then { s with sec := { s.sec with wiped := false } }
            else s
          health (measEvent s 1 0 (transitionSigner a target) 0 (slice b 0x10 32)))

/-- WIPE_DONE: steps 2 to 5 of the wipe have been performed (R389). -/
def execWipeDone (s : State) : Host.Outcome State Fault Refusal :=
  .next (
    if !s.sec.wiping then s
    else
      let zero := fun (D : CDieSt) => { D with sc := [], dcDiemark := wset D.dcDiemark 9 0 0 }
      health { s with
        sec := { s.sec with ownerKey := none, idKey := none, certs := [], wiped := true, wiping := false }
        ch := { s.ch with slots := ChSt.reset.slots, current := 0 }
        mem := stEmpty 30, mpoison := []
        tiles := s.tiles.map (fun (p : Nat × Tile) => (p.1, { p.2 with store := stEmpty 18, poison := [], latent := [] }))
        cdies := s.cdies.map (fun p => (p.1, zero p.2)) })

/-! The brake mask (R374, R399) -/

/-- BRAKE_MASK: a KIND 1 token signed by the owner, or by the vendor in MANUFACTURE, while BRAKE_STUCK is set and the Chart
permits it; the brake goes out of force (R374, R399). -/
def execBrakeMask (b : List Byte) (s : State) : Host.Outcome State Fault Refusal :=
  .next (
    if !lsManaged s then s
    else
      let signer := if s.sec.lifecycle = 0 then 2 else 1
      match tokenChecks s b 1 signer with
      | some k => refuseToken s k
      | none =>
        if s.sec.lifecycle = 3 ∨ !s.pw.brakeStuck ∨ permit s 4 = false then refuseToken s 5
        else
          let s := { s with sec := { s.sec with chal := none } }
          let s := measEvent s 4 0 signer 0 (slice b 0x10 32)
          let stuck := s.pw.brakeStuck
          let s := brakeOff s
          { s with pw := { s.pw with masked := true, brakeStuck := stuck } })

/-! Registers (R401) -/

/-- LS_LIFECYCLE. -/
def lsLifecycle (s : State) : Word :=
  let x := s.sec
  toW (x.running.getD 0 0 % 256 * 2 ^ 32 + b2n x.ownerKey.isSome * 64 + b2n x.idKey.isSome * 32 + b2n x.wiped * 16 + b2n x.wiping * 8
    + x.lifecycle % 4)

/-- LS_DBG_STAT. -/
def lsDbgStat (s : State) : Word :=
  let x := s.sec
  let e := match x.session with
    | some e => e.transport % 4 * 64 + b2n e.hold * 32 + b2n e.audited * 16 + e.level % 4
    | none => 0
  toW (x.sessions % 65536 * 2 ^ 48 + x.refusal % 256 * 2 ^ 32 + e)

/-- LS_DBG_MASK. -/
def lsDbgMask (s : State) : Word := toW ((s.sec.session.map (·.mask)).getD 0)

/-- LS_MEAS(i, w). -/
def lsMeas (s : State) (i w : Nat) : Word := toW (leAt (s.sec.meas.getD i []) (8 * w) 8)

end Machine
end Sys2Proof
end

