-- ==== Sys2Proof/Machine/Meter.lean ====
section
/-!
DEFINITION. The Franking Meter (17 R402 to R426). Meter ticks are counted as the model's ticks (assumption 2).
-/

namespace Sys2Proof
namespace Machine

/-- The meter with some fields changed. -/
def modM (s : State) (f : MeterSt → MeterSt) : State := { s with fm := f s.fm }

/-! Ledger, audit log (R413 to R418) -/

/-- INDEX of the next record. -/
def nextIndex (m : MeterSt) : Nat := m.base + m.ledger.length

/-- Make room: with 262,144 records held the oldest block goes, with its postmark (R416). -/
def makeRoom (m : MeterSt) : MeterSt :=
  if m.ledger.length < 262144 then m
  else { m with ledger := m.ledger.drop 256, base := m.base + 256, marks := merase m.marks (m.base / 256)
                discarded := (m.discarded + 1) % 65536 }

/-- Write a ledger record (R413 Table 4): type, posts lost, energy, ticks, content. -/
def ledgerAdd (m : MeterSt) (type lost e ticks : Nat) (content : List Byte) : MeterSt :=
  let m := makeRoom m
  let r := toLE 8 (nextIndex m) ++ toLE 1 type ++ toLE 1 m.sealed ++ toLE 2 m.rule ++ toLE 4 lost ++ toLE 8 m.intervals ++ toLE 8 e
    ++ toLE 8 m.cum ++ toLE 8 m.events ++ toLE 4 ticks ++ List.replicate 12 0#8 ++ slice content 0 256
  let d := Config.shake256 (m.chain ++ r)
  { m with ledger := m.ledger ++ [r ++ d], chain := d }

/-- LOG_FULL: 1,024 entries, and the oldest one's EVENT record in no postmarked block (R418). -/
def logFull (m : MeterSt) : Bool :=
  decide (m.log.length ≥ 1024) && (match m.log with | e :: _ => decide (leAt e 0x10 8 / 256 ≥ m.blocks) | [] => false)

/-- An audit event: counter, entry and EVENT record in one step (R417). -/
def auditEvent (m : MeterSt) (kind source param : Nat) (detail : List Byte) : MeterSt :=
  let n := m.events + 1
  let m := makeRoom m
  let e := toLE 8 n ++ toLE 1 kind ++ toLE 1 source ++ toLE 2 param ++ toLE 4 0 ++ toLE 8 (nextIndex m) ++ slice detail 0 8
  let log := m.log ++ [e]
  ledgerAdd { m with events := n, log := if log.length > 1024 then log.drop 1 else log } 3 0 0 0 e

/-- A POWER record: 1 main lost, 2 main returned, 3 meter start. -/
def powerRecord (m : MeterSt) (k : Nat) : MeterSt := ledgerAdd m 4 0 0 0 (toLE 1 k)

/-! Intervals and allocation (R405, R412) -/

/-- R412's division of E millijoules by the channels' activities. -/
def allocate (e : Nat) (a : List Nat) : List Nat :=
  let A := a.foldl (· + ·) 0
  let sh := (a.drop 1).map (fun x => if A = 0 then 0 else e * x / A % 2 ^ 32)
  (((e : Int) - (sh.foldl (· + ·) 0 : Nat)) % (2 ^ 32 : Nat)).toNat :: sh

/-- Close the open interval: its energy in whole millijoules, the remainder carried, the activities divided, the INTERVAL
record written (R405, R412, R413). The next one begins at `next`. -/
def closeInterval (m : MeterSt) (ticks : Nat) (next : Option Nat) : MeterSt :=
  let e := m.nj / 1000000
  let ch := allocate e m.act
  let m1 := { m with nj := m.nj % 1000000, act := List.replicate 64 0, posts := [], cum := m.cum + e, from_ := next, lostNow := 0
                     chan := (m.chan.zip ch).map (fun p => p.1 + p.2) }
  let m2 := ledgerAdd m1 1 m.lostNow e ticks (ch.flatMap (toLE 4))
  { m2 with intervals := m2.intervals + 1 }

/-- The open interval is cut short (R412, R426). -/
def cutInterval (m : MeterSt) (now : Nat) : MeterSt :=
  match m.from_ with
  | some t => closeInterval m (now - t) none
  | none => m

/-- METER_INTERVAL_END: 750,000,000 meter ticks after the interval began (R412). -/
def execMeterIntervalEnd (s : State) : Host.Outcome State Fault Refusal :=
  .next (
    match s.fm.from_ with
    | some t =>
      if s.now < t + 750000000 ∨ s.fm.fault then s
      else modM s (fun m => closeInterval m 750000000 (some (t + 750000000)))
    | none => s)

/-- ENERGY_SAMPLE: a pair of ADC codes of voltage and current, while an interval runs (R405). -/
def execEnergySample (v i : BitVec 24) (s : State) : Host.Outcome State Fault Refusal :=
  .next (
    let m := s.fm
    if !m.on ∨ m.fault ∨ m.from_.isNone then s
    else
      let e := Config.adcEnergy m.volt m.curr v i
      modM s (fun m => { m with nj := m.nj + e
                                samples := (m.samples.filter (fun x => decide (x.1 + 12500000 > s.now))) ++ [(s.now, e)] }))

/-! Activity posts (R408, R409, R411) -/

/-- ACTIVITY_POST_SEND: the periodic post of a tile that is not in T3 (R408). -/
def execActivityPostSend (t : TileId) (s : State) : Host.Outcome State Fault Refusal :=
  .next (if (getT s t).tstate = .t3 then s else sendPost s t)

/-- A post's activity under the weights: Σ w[OP][k] × count (R411). -/
def activity (m : MeterSt) (p : MPost) : Nat :=
  p.counts.zipIdx.foldl (fun n x => n + leAt m.weights (24 * p.op + 4 * x.2) 4 * x.1) 0

/-- ACTIVITY_POST_RECEIVE: the next post in transit arrives; it is dropped and counted where 4,096 posts wait, and a gap in
its tile's SEQ counts the posts missing; its activity goes to the channel that the map in force gives (R409, R410). -/
def execActivityPostReceive (s : State) : Host.Outcome State Fault Refusal :=
  .next (
    match s.fm.transit with
    | [] => s
    | p :: rest =>
      let s := modM s (fun m => { m with transit := rest })
      if !s.fm.on ∨ s.fm.fault then s
      else modM s (fun m =>
        let gap := if p.seq = 1 then 0 else (p.seq + 2 ^ 32 - (mget m.lastSeq 0 p.tile + 1)) % 2 ^ 32
        let full := m.posts.length ≥ 4096
        let lost := gap + b2n full
        let m := { m with lastSeq := mset m.lastSeq p.tile p.seq, lost := m.lost + lost, lostNow := m.lostNow + lost }
        if full then m
        else { m with posts := m.posts ++ [p], act := lmod m.act (m.map.getD p.tile 0) (· + activity m p) }))

/-! Postmarks (R415) -/

/-- The block whose postmark is due: complete and not yet postmarked. -/
def dueBlock (m : MeterSt) : Option Nat :=
  let n := max m.blocks (m.base / 256)
  if nextIndex m ≥ 256 * (n + 1) then some n else none

/-- POSTMARK: the postmark of a completed block is signed and stored (R415). -/
def execPostmark (s : State) : Host.Outcome State Fault Refusal :=
  .next (
    match dueBlock s.fm, s.fm.keys with
    | some n, some _ =>
      if !s.fm.on then s
      else modM s (fun m =>
        let r := m.ledger.getD (256 * n + 255 - m.base) []
        let h := toLE 4 0x4D50584C ++ toLE 2 1 ++ toLE 2 0 ++ toLE 8 n ++ slice r 0x140 64 ++ slice r 0x28 8 ++ slice m.fwId 0 64
          ++ toLE 2 m.rule ++ toLE 1 m.sealed ++ List.replicate 37 0#8
        { m with marks := mset m.marks n h, blocks := n + 1 })
    | _, _ => s)

/-! Messages of the Lodestar (R403, R410, R418, R419) -/

/-- CHART_MESSAGE: tile map and METER section are taken; with the log full, only the map where the section changes a
parameter. Changes are written as MAP and EVENT records (R413, R417, R418, R421). -/
def execChartMessage (s : State) : Host.Outcome State Fault Refusal :=
  .next (
    match s.fm.chartMsgs with
    | [] => s
    | (serial, map, bytes) :: rest =>
      let s := modM s (fun m => { m with chartMsgs := rest })
      if !s.fm.on then s
      else modM s (fun m =>
        let new := if logFull m ∧ bytes ≠ m.meter then m.meter else bytes
        let rule := leAt new 0 2
        let ruleEv := new ≠ m.meter ∧ rule ≠ m.rule
        let chanEv := new ≠ m.meter ∧ slice new 0x40 64 ≠ slice m.meter 0x40 64
        let differs := map ≠ m.map ∨ new ≠ m.meter
        let m := { m with map := map, meter := new, rule := if new ≠ m.meter then rule else m.rule }
        let m := if differs ∧ !m.fault then ledgerAdd m 2 0 0 0 (toLE 8 serial ++ Config.shake256 (map.map (BitVec.ofNat 8)) ++ Config.shake256 new) else m
        let m := if ruleEv then auditEvent m 1 1 5 (Config.shake256 (toLE 2 rule)) else m
        if chanEv then auditEvent m 1 1 6 (Config.shake256 (slice new 0x40 64)) else m))

/-- DEBUG_EVENT_RECEIVE: a debug-session event is recorded and acknowledged, unless the log is full (R418, R419). -/
def execDebugEventReceive (s : State) : Host.Outcome State Fault Refusal :=
  .next (
    match s.fm.debugMsgs with
    | [] => s
    | (level, mask, signer) :: rest =>
      let s := modM s (fun m => { m with debugMsgs := rest })
      if !s.fm.on ∨ logFull s.fm then s
      else modM s (fun m => { auditEvent m 3 1 (level + 256 * signer) (toLE 8 mask) with acks := m.acks + 1 }))

/-! Commands of the meter's own target (R420 to R424) -/

/-- An answer of the meter's target. -/
def meterAnswer (s : State) (b : List Byte) : State := emit s (.sideband 3 b)

/-- A command is refused: FM_CMD shows the code; the challenge is consumed from check 3 on (R422). -/
def meterRefuse (s : State) (code : Nat) (token : Bool) : State :=
  modM s (fun m => { m with refusal := code, chal := if token && decide (code ≥ 3) then none else m.chal })

/-- METER_GET_CHALLENGE (R422, R424). -/
def execMeterGetChallenge (s : State) : Host.Outcome State Fault Refusal :=
  .next (
    if !s.fm.on then s
    else
      let (b, s) := randomBytes s
      meterAnswer (modM s (fun m => { m with chal := some (b, s.now) })) b)

/-- METER_CHALLENGE_EXPIRY: 750,000,000 meter ticks after its issue (R422). -/
def execMeterChallengeExpiry (s : State) : Host.Outcome State Fault Refusal :=
  .next (
    match s.fm.chal with
    | some (_, t) => if s.now ≥ t + 750000000 then modM s (fun m => { m with chal := none }) else s
    | none => s)

/-- READ_LEDGER: up to 16 records from an INDEX still held (R424). -/
def execReadLedger (index n : Nat) (s : State) : Host.Outcome State Fault Refusal :=
  .next (
    if !s.fm.on then s
    else if index < s.fm.base ∨ index ≥ nextIndex s.fm ∨ n = 0 ∨ n > 16 then meterRefuse s 1 false
    else meterAnswer s ((s.fm.ledger.drop (index - s.fm.base)).take n).flatten)

/-- READ_POSTMARK: the postmark of a block still held, with its signature (R415, R424). -/
def execReadPostmark (block : Nat) (s : State) : Host.Outcome State Fault Refusal :=
  .next (
    if !s.fm.on then s
    else
      match mfind s.fm.marks block, s.fm.keys with
      | some h, some k => meterAnswer s (h ++ Config.slhSignF k.2 h)
      | _, _ => meterRefuse s 1 false)

/-- Checks 1 to 4 of a verification token of a KIND (R422 Table 8); `vendor` allows the vendor key too. -/
def vtokenChecks (s : State) (b : List Byte) (kind : Nat) (vendor : Bool) : Option Nat :=
  let body := slice b 0 0x80
  let sig := slice b 0x80 29792
  if !(b.length == 29920 && leAt b 0 4 == 0x5456584C && leAt b 4 2 == 1 && leAt b 6 1 == kind && leAt b 7 1 == 0
      && allZero (slice b 0x33 13)
      && (if kind = 0 then leAt b 0x32 1 == 0 && decide (1 ≤ leAt b 0x30 2 ∧ leAt b 0x30 2 ≤ 4)
          else if kind = 1 then leAt b 0x30 2 == 0 && decide (leAt b 0x32 1 ≤ 2) && allZero (slice b 0x40 64)
          else leAt b 0x30 3 == 0)) then some 1
  else if leAt b 8 8 ≠ moduleSerial then some 2
  else if !chalValid s.fm.chal s.now (slice b 0x10 32) then some 3
  else if !(Config.slhVerify s.fm.vkey body sig || (vendor && Config.slhVerify Config.vendorKey body sig)) then some 4
  else none

/-- Length of a parameter of Table 7. -/
def paramLen (p : Nat) : Nat := ([0, 8, 8, 96, 64] : List Nat).getD p 0

/-- Write a sealed parameter, an audit event (R417, R421). -/
def writeParam (m : MeterSt) (p : Nat) (v : List Byte) : MeterSt :=
  let m := match p with
    | 1 => { m with volt := v } | 2 => { m with curr := v } | 3 => { m with weights := v } | _ => { m with vkey := v }
  auditEvent m 1 0 p (Config.shake256 v)

/-- SET_PARAM: without a token in MANUFACTURE, with one under a key that the seal state allows after it (R420 to R422). -/
def execSetParam (p : Fin 65536) (v : List Byte) (token : Option (List Byte)) (s : State) : Host.Outcome State Fault Refusal :=
  .next (
    if !s.fm.on then s
    else if p.val = 0 ∨ p.val > 4 ∨ v.length ≠ paramLen p.val then meterRefuse s 1 false
    else
      match s.fm.sealed, token with
      | 0, _ => if logFull s.fm then meterRefuse s 7 false else modM s (fun m => writeParam m p.val v)
      | _, none => meterRefuse s 1 false
      | st, some b =>
        match vtokenChecks s b 0 (st == 2) with
        | some k => meterRefuse s k true
        | none =>
          if leAt b 0x30 2 ≠ p.val then meterRefuse s 5 true
          else if slice b 0x40 64 ≠ Config.shake256 v then meterRefuse s 6 true
          else if logFull s.fm then meterRefuse s 7 true
          else modM s (fun m => writeParam { m with chal := none } p.val v))

/-- Change the seal state, an audit event. -/
def setSeal (m : MeterSt) (st : Nat) : MeterSt := auditEvent { m with sealed := st } 4 0 st []

/-- SEAL: a transition of Table 6 to SEALED (1) or UNSEALED (2) (R420, R422). -/
def execSeal (target : Fin 256) (token : Option (List Byte)) (s : State) : Host.Outcome State Fault Refusal :=
  .next (
    if !s.fm.on then s
    else
      let m := s.fm
      let st := target.val
      if m.sealed = 0 then
        if st = 0 ∨ st > 2 then meterRefuse s 1 false
        else if m.keys.isNone ∨ (st = 1 ∧ m.order ≠ 1) then meterRefuse s 5 false
        else if logFull m then meterRefuse s 7 false
        else modM s (fun m => setSeal m st)
      else
        match token with
        | none => meterRefuse s 1 false
        | some b =>
          match vtokenChecks s b 1 false with
          | some k => meterRefuse s k true
          | none =>
            if leAt b 0x32 1 ≠ st ∨ !((m.sealed = 2 ∧ st = 1 ∧ m.order = 1) ∨ (m.sealed = 1 ∧ st = 2)) then meterRefuse s 5 true
            else if logFull m then meterRefuse s 7 true
            else modM s (fun m => setSeal { m with chal := none } st))

/-- METER_PROVISION: identity and postmark keys and their certificates, once, in MANUFACTURE (R415, R424). -/
def execMeterProvision (s : State) : Host.Outcome State Fault Refusal :=
  .next (
    if !s.fm.on then s
    else if s.fm.sealed ≠ 0 ∨ s.fm.keys.isSome then meterRefuse s 5 false
    else modM s (fun m => { m with keys := some (2 ^ 32, 2 ^ 32 + 1), certs := Config.certChain (2 ^ 32), lost := 0 }))

/-- METER_FW_UPDATE: an image is checked as R381 gives, against the meter's own floors, and stored for the next restart; one
of KIND 1 needs MANUFACTURE or a token of KIND 2 that names it (R423). -/
def execMeterFwUpdate (image : List Byte) (token : Option (List Byte)) (s : State) : Host.Outcome State Fault Refusal :=
  .next (
    let m := s.fm
    let kind := leAt image 6 2
    if !m.on ∨ !(kind = 1 ∨ kind = 2) ∨ !imageOk 0x4D46584C kind (m.floors.getD (kind - 1) 0) image then s
    else
      let store := fun (s : State) => modM s (fun m => { m with staged := m.staged.set (kind - 1) image })
      if kind = 2 then store s
      else if m.sealed = 0 then (if logFull m then meterRefuse s 7 false else store s)
      else
        match token with
        | none => meterRefuse s 5 false
        | some b =>
          match vtokenChecks s b 2 (m.sealed == 2) with
          | some k => meterRefuse s k true
          | none =>
            if slice b 0x40 64 ≠ slice image 0x40 64 then meterRefuse s 6 true
            else if logFull m then meterRefuse s 7 true
            else store (modM s (fun m => { m with chal := none })))

/-! Starting, stopping, the main input (R402, R423, R426) -/

/-- Images stored for the next restart are installed: a changed identification is an audit event (R404, R423). -/
def meterInstall (m : MeterSt) : MeterSt :=
  let i1 := m.staged.getD 0 []
  let i2 := m.staged.getD 1 []
  let m := { m with staged := [[], []]
                    floors := [if i1.isEmpty then m.floors.getD 0 0 else max (m.floors.getD 0 0) (leAt i1 8 4),
                               if i2.isEmpty then m.floors.getD 1 0 else max (m.floors.getD 1 0) (leAt i2 8 4)] }
  if i1.isEmpty then m
  else
    let id := slice i1 0x40 64
    let m := { m with fwVersion := leAt i1 0x10 8 }
    if id = m.fwId then m else auditEvent { m with fwId := id } 2 0 0 (Config.shake256 id)

/-- The meter starts: a POWER record of content 3; with the main input present an interval begins. -/
def meterStart (s : State) : State :=
  modM s (fun m =>
    let m := { m with on := true, fault := false, refusal := 0, chal := none, spdm := SpdmSt.reset, transit := [], posts := []
                      chartMsgs := [], debugMsgs := [], acks := 0, samples := [], mainPresent := s.su.mainGood }
    let m := meterInstall (powerRecord m 3)
    { m with from_ := if s.su.mainGood then some s.now else none })

/-- The auxiliary input is lost: the hold-up closes the interval (R426). -/
def meterStop (s : State) : State :=
  modM s (fun m => if m.on then { cutInterval m s.now with on := false, mainPresent := false } else m)

/-- The main input is lost: the interval closes short, then a POWER record (R426). -/
def meterMainLost (s : State) : State :=
  modM s (fun m => if m.on ∧ m.mainPresent then powerRecord { cutInterval m s.now with mainPresent := false } 1 else m)

/-- The main input returns. -/
def meterMainGood (s : State) : State :=
  modM s (fun m =>
    if m.on ∧ !m.mainPresent then
      let m := powerRecord { m with mainPresent := true } 2
      { m with from_ := if m.fault then none else some s.now }
    else m)

/-- METER_FAULT: the self-test fails; the open interval closes with a FAULT-free final record, and the meter stops
accumulating (R425). -/
def execMeterFault (s : State) : Host.Outcome State Fault Refusal :=
  .next (
    if !s.fm.on ∨ s.fm.fault then s
    else modM s (fun m => { cutInterval m s.now with fault := true }))

/-! The window (R425) -/

/-- Readings are billable (R420). -/
def billable (m : MeterSt) : Bool := m.sealed == 1 && m.order == 1 && !m.fault

/-- The mean input power of the last second, in 0.1 W: nJ over one second are 10^-9 W. -/
def deciWatts (m : MeterSt) (now : Nat) : Nat :=
  ((m.samples.filter (fun x => decide (x.1 + 12500000 > now))).foldl (fun n x => n + x.2) 0) / 100000000

/-- The registers of the window as they stand, FM_SEQ at a value. -/
def meterRegs (m : MeterSt) (now seq : Nat) : List Byte :=
  toLE 8 seq
  ++ toLE 8 (m.rule % 65536 * 2 ^ 32 + m.discarded % 65536 * 65536 + b2n m.mainPresent * 32768 + b2n m.fault * 16384
      + b2n (logFull m) * 8192 + b2n (billable m) * 4096 + m.order % 4 * 256 + m.sealed % 4)
  ++ toLE 8 (m.cum / 3600) ++ toLE 8 m.cum ++ toLE 8 m.events ++ toLE 8 (nextIndex m - 1) ++ toLE 8 m.blocks
  ++ toLE 8 (deciWatts m now % 2 ^ 32) ++ toLE 8 m.lost ++ toLE 8 m.refusal

/-- Bytes placed at rising offsets, zero between them, from offset `pos` up to `stop`. -/
def placeAll (pos stop : Nat) : List (Nat × List Byte) → List Byte
  | [] => List.replicate (stop - pos) 0#8
  | (o, b) :: r => List.replicate (o - pos) 0#8 ++ b ++ placeAll (o + b.length) stop r

/-- The window of Table 10, 64 KiB. -/
def windowBytes (m : MeterSt) (now seq : Nat) : List Byte :=
  let key := fun (k : Option Nat) => match k with | some n => slice (Config.publicKey n) 0 64 | none => List.replicate 64 0#8
  let rec_ := fun (j : Nat) =>
    let newest := nextIndex m
    let i := newest - 1 - (newest - 1 - j) % 64
    if newest = 0 ∨ newest - 1 < j ∨ i < m.base then List.replicate 384 0#8 else slice (m.ledger.getD (i - m.base) []) 0 384
  let entry := fun (j : Nat) =>
    match m.log.find? (fun e => (leAt e 0 8 - 1) % 1024 == j) with | some e => slice e 0 32 | none => List.replicate 32 0#8
  placeAll 0 0x10000
    [(0, meterRegs m now seq),
     (0x100, slice m.fwId 0 64 ++ toLE 8 m.fwVersion),
     (0x180, slice m.vkey 0 64 ++ key (m.keys.map (·.1)) ++ key (m.keys.map (·.2)) ++ m.volt ++ m.curr ++ m.weights),
     (0x400, m.chan.flatMap (toLE 8)),
     (0x600, m.map.map (BitVec.ofNat 8)),
     (0xA00, match mfind m.marks (m.blocks - 1) with | some h => slice h 0 0xC0 | none => List.replicate 0xC0 0#8),
     (0x2000, (List.range 64).flatMap rec_),
     (0x8000, (List.range 1024).flatMap entry)]

/-- WINDOW_PUSH: the meter's window goes to the buffer in HX; FM_SEQ advances to the next even value (R425). -/
def execWindowPush (s : State) : Host.Outcome State Fault Refusal :=
  .next (
    if !s.fm.on ∨ !s.su.mainGood then s
    else modM s (fun m => { m with seq := m.seq + 2, window := windowBytes m s.now (m.seq + 2) }))

end Machine
end Sys2Proof
end

