-- ==== Sys2Proof/Machine/Startup.lean ====
section
/-!
DEFINITION. Inputs, start-up, reset kinds, the trim set, thermal trip, I3C addresses (19 R445 to R457, 20 R463 to R472).
-/

namespace Sys2Proof
namespace Machine

/-! The trim set (R452 to R455) -/

/-- A trim image is valid (R453). -/
def trimValid (b : List Byte) : Bool :=
  b.length == 65536 && leAt b 0 4 == 0x5254584C && leAt b 4 2 == 1 && leAt b 7 1 == 0 && leAt b 8 8 == moduleSerial
    && allZero (slice b 0x14 12) && allZero (slice b 0x20 32) && allZero (slice b 0x5400 3072) && allZero (slice b 0xE000 8128)
    && slice b 0xFFC0 64 == Config.shake256 (slice b 0 0xFFC0)

/-- The trim values step 3 uses, with LS_BOOT.TRIM_SRC (R453). -/
def trimSource (s : State) : Nat × List Byte :=
  if trimValid s.su.trim then (0, s.su.trim)
  else if trimValid s.su.save then (1, s.su.save)
  else (2, Config.romTrim)

/-- A trim command is refused: its code, none where it is accepted (R454). -/
def trimRefused (s : State) : Option Nat :=
  if s.sec.lifecycle = 2 ∨ s.sec.lifecycle = 3 then some 1
  else if !drained s ∨ s.hx.health ≠ 1 then some 2
  else none

/-- A trim command with its refusals. -/
def trimCmd (s : State) (f : State → State) : State :=
  if !lsManaged s then s
  else match trimRefused s with
    | some k => { s with su := { s.su with trimRefusal := k } }
    | none => f s

/-- TRIM_READ: returns the trim set, or SAVE (R454). -/
def execTrimRead (x : Sideband) (save : Bool) (s : State) : Host.Outcome State Fault Refusal :=
  .next (trimCmd s (fun s => emit s (.sideband (transportCode x) (if save then s.su.save else s.su.trim))))

/-- TRIM_WRITE: replaces the trim set with a valid image; it takes effect at the next restart of the Lodestar firmware
(R454, R455). -/
def execTrimWrite (b : List Byte) (s : State) : Host.Outcome State Fault Refusal :=
  .next (trimCmd s (fun s =>
    if trimValid b then { s with su := { s.su with trim := b, trimPending := true } }
    else { s with su := { s.su with trimRefusal := 3 } }))

/-- TRIM_SAVE: copies the trim set to SAVE (R454). -/
def execTrimSave (s : State) : Host.Outcome State Fault Refusal :=
  .next (trimCmd s (fun s => { s with su := { s.su with save := s.su.trim } }))

/-- TRIM_RESTORE: copies SAVE, if valid, to the trim set (R454). -/
def execTrimRestore (s : State) : Host.Outcome State Fault Refusal :=
  .next (trimCmd s (fun s =>
    if trimValid s.su.save then { s with su := { s.su with trim := s.su.save, trimPending := true } }
    else { s with su := { s.su with trimRefusal := 4 } }))

/-! Start-up (R446, R447) -/

/-- Record the first failure. -/
def bootFail (s : State) (f : Nat) : State := if s.su.fail = 0 then { s with su := { s.su with fail := f } } else s

/-- The step completed last. -/
def bootStage (s : State) (k : Nat) : State := { s with su := { s.su with stage := k } }

/-- The slot of KIND k + 1 that a start-up is to use: the current one if it passes R381, else the other. -/
def fwChoice (s : State) (k : Nat) : Option Nat :=
  let c := s.sec.current.getD k 0
  if fwOk s k (fwImage s k c) then some c else if fwOk s k (fwImage s k (1 - c)) then some (1 - c) else none

/-- The firmware restarts: the slots of this start-up are chosen, so that an update which comes meanwhile goes to the other
slot and waits for the next restart (R381). -/
def chooseSlots (s : State) : State :=
  let b := (List.range 4).map (fwChoice s)
  { s with sec := { s.sec with boot := b, inUse := (b.zip s.sec.inUse).map (fun p => p.1.getD p.2) } }

/-- The slot of KIND k + 1 that this start-up uses. -/
def fwSlot (s : State) (k : Nat) : Option Nat := (s.sec.boot.getD k none)

/-- An image of KIND k + 1 runs from a slot: its SVN is noted; its DIGEST. -/
def fwRun (s : State) (k n : Nat) : State × List Byte :=
  let b := s.sec.slots.getD (2 * k + n) []
  ({ s with sec := { s.sec with inUse := s.sec.inUse.set k n, running := s.sec.running.set k (leAt b 8 4) } }, slice b 0x40 64)

/-- A fault whose die-internal reason the spec does not state: the reason is a free value. -/
def dieFatalFree (s : State) (i : Nat) : State :=
  let r := (Config.freeValue s.draws).toNat % 2 ^ 32
  dieFatal { s with draws := s.draws + 1 } i r

/-- Step 2: the ROM tests itself and loads the Lodestar firmware (R381, R384, R447). -/
def bootLodestar (s : State) (badA badB : Bool) : State :=
  let s := chooseSlots s
  match fwSlot s 0 with
  | none => bootFail s 1
  | some n =>
    let (s, d) := fwRun s 0 n
    let s := extendMeas { s with su := { s.su with lsSlot := n } } 0 d
    let s := { s with
      sec := { s.sec with standby := s.sec.meas, unsent := [] }
      rec_ := { s.rec_ with absent := [badA, badB] }
      hx := { s.hx with activeLs := if badA ∧ !badB then 1 else 0 } }
    if badA ∧ badB then s else bootStage s 2

/-- Step 3: trim set, SVN floors, an interrupted wipe, the first heartbeats (R385, R389, R438). -/
def bootTrim (s : State) : State :=
  let (k, b) := trimSource s
  let s := extendMeas { s with su := { s.su with trimSrc := k } } 1 (Config.shake256 b)
  let wipe := decide (s.sec.lifecycle = 3) && !s.sec.wiped
  let s := { s with
    sec := { s.sec with wiping := wipe }
    rec_ := { s.rec_ with hbSeq := 1, hbTick := s.now, peerTick := if peerAlive s then some s.now else none } }
  beatStandby (beatDies (bootStage s 3) 1)

/-- Step 4: rails and PLLs, HX firmware (R446, R447). -/
def bootRails (s : State) (bad : Nat) : State :=
  let ok := (List.range 28).filter (fun i => !bad.testBit i)
  let s := railBits s true (31 :: ok)
  let s := bootStage { s with su := { s.su with mainOk := true } } 4
  let s := match fwSlot s 1 with
    | none => bootFail s 2
    | some n =>
      let (s, d) := fwRun s 1 n
      extendMeas { s with su := { s.su with hxFw := true } } 4 d
  (bitsOf 28 bad).foldl (fun s i => dieFatalFree (bootFail s 4) i) s

/-- Apply a stored Chart or amendment at start-up. -/
def applyStored (s : State) (c : Chart) (b : List Byte) (target chain : Nat) : State :=
  let s := { s with chart := some c, pw := { s.pw with level := topLevels s c }
                    ch := { s.ch with state := 2, chainLen := chain, target := target } }
  sendChartMsg (extendMeas s 2 (imageDigest b))

/-- Apply the amendments of a chain up to the first that fails (R65). -/
def applyChain (s : State) : List (List Byte) → State
  | [] => s
  | b :: r =>
    match validate s b s.chart true, s.chart with
    | some f, _ => noteReject s f
    | none, none => s
    | none, some c => applyChain (applyStored s (amendedChart c b) b (leAt b 0x0B 1) (s.ch.chainLen + 1)) r

/-- Try the Chart of a slot: the state in which it and its chain are in force, or the rejection. -/
def trySlot (s : State) (n : Nat) : State × Bool :=
  let x := s.ch.slots.getD n ChSlot.empty
  if x.base.isEmpty then (s, false)
  else
    match validate s x.base none true with
    | some f => (noteReject s f, false)
    | none => (applyChain (applyStored { s with ch := { s.ch with current := n } } (chartOf x.base) x.base 0 0) x.chain, true)

/-- Stored fences come into force (R437). -/
def storedFences (s : State) : State :=
  (List.range 16).foldl (fun s d =>
    let c := wfld s.rec_.stored (2 * d + 1) (2 * d)
    if c = 0 then s else domainFence s d c id) s

/-- Step 6: the stored Chart chain, the stored fences (R65, R437). -/
def bootChart (s : State) : State :=
  let r := trySlot s s.ch.current
  let s := if r.2 then r.1 else (trySlot r.1 (1 - r.1.ch.current)).1
  globalDirty (bindQueues (bootStage (storedFences s) 6))

/-- Step 7: link-die firmware, which extends register 4 for each die that loads it, tiles, ports (R384, R446, R447). `bad` has
the link dies on which it fails. -/
def bootLinks (s : State) (bad : Nat) : State :=
  let s := match fwSlot s 2 with
    | none => (List.range 12).foldl (fun s n => dieFatalFree (bootFail s 3) (16 + n)) s
    | some k =>
      let (s, d) := fwRun s 2 k
      let up := (List.range 12).filter (fun n => !bad.testBit n && (getW s (16 + n)).wkState.toNat.testBit 1)
      let s := up.foldl (fun s _ => extendMeas s 4 d) s
      (bitsOf 12 bad).foldl (fun s n => dieFatalFree (bootFail s 3) (16 + n)) s
  let s := match s.chart with
    | none => s
    | some c =>
      let s := portsByChart (placeTiles s c) none
      s.link.linkFenced.foldl (fun s n => [2 * n, 2 * n + 1].foldl (fun s p => portLost s p ((getP s p).reason)) s) s
  bootStage s 7

/-- Step 8: the stacks train; `bad` has those that fail (R446, R447). -/
def bootStacks (s : State) (bad : Nat) : State :=
  let s := patrolBegins { s with su := { s.su with dramKept := true } }
  bootStage ((bitsOf 16 bad).foldl (fun s d => dieFatalFree (bootFail s 5) d) s) 8

/-- Step 9: the runtime image, the meter's identification (R384, R446, R447). -/
def bootRuntime (s : State) : State :=
  let s := match s.chart, fwSlot s 3 with
    | none, _ => s
    | some _, none => bootFail s 6
    | some _, some n =>
      let (s, d) := fwRun s 3 n
      extendMeas { s with su := { s.su with rtOk := true } } 3 d
  bootStage (extendMeas s 6 (slice s.fm.fwId 0 64)) 9

/-- STARTUP_STEP_DONE: step k of Table 1 completes; `bad` tells what failed in it: step 2 the self-tests of LSA and LSB,
step 4 the rails or PLLs of the dies, step 7 the link dies' firmware, step 8 the stacks' training (R446, R447). Step 5 is
CONFIG_READY. Steps wait for a wipe that step 3 restarted (R389). -/
def execStartupStepDone (k : Fin 10) (bad : BitVec 28) (s : State) : Host.Outcome State Fault Refusal :=
  .next (
    let x := s.su
    let b := bad.toNat
    if !x.auxGood ∨ x.hold then s
    else
      let ready := x.mainGood && !x.again && x.fail != 1 && lsAlive s
      health (
        match k.val with
        | 1 => if x.stage = 0 then bootStage (setWk (railBits s true [28, 29]) 30 1 true) 1 else s
        | 2 => if x.stage = 1 ∧ x.fail = 0 then bootLodestar s (b.testBit 0) (b.testBit 1) else s
        | 3 => if x.stage = 2 then bootTrim s else s
        | 4 =>
          if x.stage = 3 ∧ ready then bootRails s b
          else if x.fail = 1 ∧ x.mainGood ∧ !x.again then { railBits s true [31] with su := { x with mainOk := true } }
          else s
        | 6 => if x.stage = 4 ∧ ready ∧ !s.sec.wiping then bootChart s else s
        | 7 => if x.stage = 6 ∧ ready then bootLinks s b else s
        | 8 => if x.stage = 7 ∧ ready then bootStacks s b else s
        | 9 => if x.stage = 8 ∧ ready then bootRuntime s else s
        | _ => s))

/-! Inputs (R445, R463, R466) -/

/-- AUX_GOOD: the auxiliary input is good; the always-on domains start, MOD_ID is sampled, the meter starts (R446, R463,
R469). -/
def execAuxGood (modId : Fin 16) (s : State) : Host.Outcome State Fault Refusal :=
  .next (
    if s.su.auxGood then s
    else meterStart { s with su := { s.su with auxGood := true, auxAt := s.now, modId := modId.val } })

/-- MAIN_GOOD: the main input is good; after a loss, start-up goes on from step 2 (R445, R457, R463). -/
def execMainGood (s : State) : Host.Outcome State Fault Refusal :=
  .next (
    if s.su.mainGood then s
    else
      let s := meterMainGood { s with su := { s.su with mainGood := true } }
      if s.su.again then
        let s := lsRestart s
        { s with su := { s.su with again := false } }
      else s)

/-- The main rails go off: everything that M3 does not retain is lost, DRAM too; sessions end (R367, R397, R398, R463). -/
def railsOff (s : State) : State :=
  let s := moduleDown (endSession s)
  let s := railBits (forgetRegions s (List.range 1024)) false [31]
  { s with
    chart := none, lsFenced := 0
    ch := { s.ch with state := 0, chainLen := 0 }
    pw := { s.pw with level := [], est := [], mstate := 0 }
    hx := { s.hx with health := 0 }
    sec := { s.sec with chal := none, audit := none, wiping := false }
    fm := { s.fm with window := [] }
    su := { s.su with stage := min s.su.stage 3, mainOk := false, hold := false, hxFw := false, rtOk := false, dramKept := false
                      again := decide (s.su.stage ≥ 1) } }

/-- MAIN_LOST: the module enters M3 (R367, R463). -/
def execMainLost (s : State) : Host.Outcome State Fault Refusal :=
  .next (
    if !s.su.mainGood then s
    else railsOff (meterMainLost { s with su := { s.su with mainGood := false } }))

/-- AUX_LOST: everything outside flash is lost; with the main input present, as the loss of both (R457, R466). -/
def execAuxLost (s : State) : Host.Outcome State Fault Refusal :=
  .next (
    if !s.su.auxGood then s
    else
      let s := meterStop s
      let s := forgetRegions s (List.range 1024)
      let z := State.reset
      { z with
        pending := s.pending, now := s.now, draws := s.draws, out := s.out, mem := s.mem
        hx := { z.hx with nextId := s.hx.nextId }
        ch := { z.ch with slots := s.ch.slots, current := s.ch.current }
        rec_ := { z.rec_ with stored := s.rec_.stored }
        sec := { z.sec with
          lifecycle := s.sec.lifecycle, wiped := s.sec.wiped, ownerKey := s.sec.ownerKey, idKey := s.sec.idKey, keyGens := s.sec.keyGens
          certs := s.sec.certs, slots := s.sec.slots, current := s.sec.current, floors := s.sec.floors }
        su := { z.su with trim := s.su.trim, save := s.su.save }
        fm := { s.fm with window := [], seq := 0 } })

/-! Reset kinds (R449) -/

/-- PERST_ASSERT: an accepted assertion; from step 4 of start-up on it enters the reset hold (R450, R457, R466). -/
def execPerstAssert (s : State) : Host.Outcome State Fault Refusal :=
  .next (
    if s.su.perst then s
    else
      let s := { s with su := { s.su with perst := true } }
      if s.su.hold then { s with su := { s.su with holdPerst := true } }
      else if s.su.auxGood ∧ s.su.mainGood ∧ (s.su.stage ≥ 3 ∨ s.su.mainOk) then enterHold s true
      else s)

/-- PERST_DEASSERT: ends a hold that PERST# entered once its steps have completed (R450). -/
def execPerstDeassert (s : State) : Host.Outcome State Fault Refusal :=
  .next (
    let x := s.su
    { s with su := { x with perst := false, hold := x.hold && !(x.holdPerst && x.holdDone) } })

/-- RESET_HOLD_DONE: step 4 of the hold has completed; a warm reset's hold ends, PERST#'s waits for its deassertion (R450). -/
def execResetHoldDone (s : State) : Host.Outcome State Fault Refusal :=
  .next (
    let x := s.su
    if !x.hold then s
    else { s with su := { x with holdDone := true, hold := x.holdPerst && x.perst } })

/-- HX_RESET: a write of 0x5752 to KEY starts a module warm reset; any other value is ignored (R456). -/
def execHxReset (v : BitVec 64) (s : State) : Host.Outcome State Fault Refusal :=
  .next (if s.su.mainOk ∧ wfld v 15 0 = 0x5752 then warmReset s else s)

/-- PLDM_OWNER_RESET: the owner's PLDM command (R449). -/
def execPldmOwnerReset (s : State) : Host.Outcome State Fault Refusal :=
  .next (if lsManaged s ∧ s.su.mainGood then warmReset s else s)

/-- The function after an FLR: configuration space, ATS caches and the HX registers of Table 5 reset, the link kept (R451). -/
def functionReset (s : State) : State :=
  let s := queuesClear s
  let h := s.hx
  { s with hx := { hxCleared h with
    drsSent := h.drsSent, lstate := h.lstate, width := h.width, maxWidth := h.maxWidth, rate := h.rate, flit := h.flit
    lastTraffic := h.lastTraffic, stopped := h.stopped } }

/-- FLR (R338, R449, R451): the function answers with Request Retry Status until CONFIG_READY (R302). -/
def execFlr (s : State) : Host.Outcome State Fault Refusal := .next (if s.hx.ready then functionReset s else s)

/-- HOT_RESET: as FLR, the link trains again and Device Readiness Status is sent again (R302, R449, R451). -/
def execHotReset (s : State) : Host.Outcome State Fault Refusal :=
  .next (
    if !s.su.mainOk ∨ s.su.perst then s
    else
      let s := functionReset s
      { s with hx := { s.hx with drsSent := false, lstate := .down, width := 0, maxWidth := 0, rate := 0, flit := false } })

/-! Thermal trip (R472) -/

/-- THERMAL_TRIP: a comparator of compute or link die i, or of a stack die of compute die i, trips while the core rails are
on: THERMTRIP# is asserted, a DIE_FATAL record of reason 1 is queued, a compute die's domain is fenced FATAL, the main rails
go off (R436, R472). -/
def execThermalTrip (i : DieIdx) (s : State) : Host.Outcome State Fault Refusal :=
  .next (
    if i.val ≥ 28 ∨ !s.su.mainOk ∨ !(getW s i.val).wkState.toNat.testBit 1 then s
    else
      let s := railsOff (dieFatal s i.val 1)
      emit { s with su := { s.su with trip := some s.now } } (.pin "THERMTRIP#" false))

/-- THERMTRIP_RELEASE: 12,500,000 ticks after the assertion (R472). -/
def execThermtripRelease (s : State) : Host.Outcome State Fault Refusal :=
  .next (
    match s.su.trip with
    | some t => if s.now ≥ t + 12500000 then emit { s with su := { s.su with trip := none } } (.pin "THERMTRIP#" true) else s
    | none => s)

/-! I3C (R469, R470) -/

/-- The static address of a target: 0x10 + MOD_ID for the Lodestar, 0x20 + MOD_ID for the meter (R469). -/
def staticAddr (s : State) (m : SpdmTarget) : Nat := (match m with | .lodestar => 0x10 | .meter => 0x20) + s.su.modId

/-- A target answers on the bus (R448). -/
def targetUp (s : State) (m : SpdmTarget) : Bool := match m with | .lodestar => lsAnswers s | .meter => s.fm.on

/-- I3C_CCC: a dynamic address is assigned, by SETDASA to the target of a static address or by ENTDAA (R470). -/
def execI3cCcc (a : I3cAssign) (s : State) : Host.Outcome State Fault Refusal :=
  .next (
    let set := fun (m : SpdmTarget) (d : BitVec 7) =>
      if targetUp s m then { s with su := { s.su with dyn := s.su.dyn.set (match m with | .lodestar => 0 | .meter => 1) d.toNat } } else s
    match a with
    | .setdasa st d =>
      if st.toNat = staticAddr s .lodestar then set .lodestar d
      else if st.toNat = staticAddr s .meter then set .meter d
      else s
    | .entdaa m d => set m d)

/-! Registers (R456) -/

/-- LS_BOOT: STAGE reads 5 once configuration is ready while step 4 is the last of the others (R446). -/
def lsBoot (s : State) : Word :=
  let x := s.su
  let st := if x.stage = 4 ∧ s.hx.ready then 5 else x.stage
  toW (x.fail * 65536 + x.trimSrc * 4096 + x.lsSlot * 256 + st)

/-- LS_TRIM. -/
def lsTrim (s : State) : Word :=
  let x := s.su
  let sv := if x.save.isEmpty then 0 else if trimValid x.save then 1 else 2
  toW (leAt x.trim 0x10 4 * 2 ^ 32 + x.trimRefusal * 256 + sv * 64 + b2n x.trimPending * 8 + leAt x.trim 6 1 % 2)

end Machine
end Sys2Proof
end

