-- ==== Sys2Proof/Machine/RegRead.lean ====
section
/-!
DEFINITION. What a read of a register of the dies and of HX returns, by address (R36, R63, R251, R279, R296, R303 to R309,
R320, R331, R335, R376, R401, R444, R456).
-/

namespace Sys2Proof
namespace Machine

/-- Registers of the Lodestars' control space, which the active one serves. -/
def lodestarReg (s : State) (off : Nat) : Word :=
  if off = 0x1000 then chartStatus s
  else if off = 0x1008 then toW ((s.chart.map (·.serial)).getD 0)
  else if off = 0x1010 then toW (s.ch.rejects % 2 ^ 32)
  else if off = 0x2000 then pwrStat s
  else if 0x2100 ≤ off ∧ off < 0x2300 then clevel s ((off - 0x2100) / 8)
  else if off = 0x3000 then lsLifecycle s
  else if off = 0x3008 then lsDbgStat s
  else if off = 0x3010 then lsDbgMask s
  else if 0x3100 ≤ off ∧ off < 0x3300 then lsMeas s ((off - 0x3100) / 64) ((off - 0x3100) / 8 % 8)
  else if off = 0x4000 then lsRecovery s
  else if off = 0x4008 then toW (maskOf 16 (fun d => s.link.fabricFenced.contains d) * 2 ^ 32 + s.lsFenced.toNat % 2 ^ 32)
  else if off = 0x4018 then fenceStat s
  else if off = 0x4020 then s.rec_.avail
  else if off = 0x4028 then toW (shortMask s)
  else if off = 0x5000 then lsBoot s
  else if off = 0x5008 then lsTrim s
  else 0

/-- Wake-controller registers of die index i, from offset 0x33_0000 of its control space (R376, R444). -/
def wkReg (s : State) (i off : Nat) : Word :=
  if off = 0 then toW (s.now - s.su.auxAt)
  else if off = 8 then (getW s i).wkState
  else if off = 0x10 ∧ i < 16 then tstateReg s i 0
  else if off = 0x18 ∧ i < 16 then tstateReg s i 1
  else if off = 0x20 then wkErrq s i
  else 0

/-- Stack-cache and DRAM-controller registers of compute die d (R251). -/
def cdieReg (s : State) (d off : Nat) : Word :=
  let D := getD s d
  if off = 0x280000 then toW (D.drops.toNat * 2 ^ 32 + keepLines D % 2 ^ 18)
  else if off = 0x300000 then D.dcTemp0
  else if off = 0x300008 then D.dcTemp1
  else if off = 0x300010 then D.dcTherm
  else if off = 0x300018 then D.dcEcc
  else if off = 0x300020 then D.dcDiemark
  else if off = 0x300028 then D.dcScrub
  else 0

/-- Port and update-engine registers of link die n (R279, R296). -/
def ldieReg (s : State) (n off : Nat) : Word :=
  if 0x200000 ≤ off ∧ off < 0x200200 then portReg (getP s (2 * n + (off - 0x200000) / 0x100)) (off % 0x100 / 8)
  else if off = 0x200800 then toW (s.link.timeout.getD n 0)
  else if off = 0x300000 then toW (b2n (permit s 2))
  else if off = 0x300008 then s.link.ueDir
  else if 0x301000 ≤ off ∧ off < 0x302000 then ueTabReg (ueTab (getE s n) ((off - 0x301000) / 64)) (off % 64 / 8)
  else 0

/-- The tile page of queue q (R331). -/
def tilePageReg (s : State) (q off : Nat) : Word :=
  let x := getQ s q
  if off = 0x08 then x.dlv
  else if off = 0x10 then toW (x.prod % 2 ^ 32)
  else if off = 0x18 then toW (x.cons % 2 ^ 32)
  else if off = 0x30 then toW (x.failed % 65536 * 2 ^ 32 + x.posts % 2 ^ 32)
  else 0

/-- HX control space: the QF registers and the tile pages (R331, R335). -/
def hxCtrlReg (s : State) (off : Nat) : Word :=
  if off = 0 then s.qf.lb
  else if off = 8 then s.qf.lbSize
  else if off = 0x10 then toW (s.qf.errCons % 2 ^ 32)
  else if 0x100 ≤ off ∧ off < 0x300 then
    let r := (off - 0x100) / 8
    let v := s.qf.rring.getD r 0
    wset v 4 4 (b2n (rringEn s r))
  else if 0x300 ≤ off ∧ off < 0x500 then toW (s.qf.rcons.getD ((off - 0x300) / 8) 0 % 2 ^ 32)
  else if 0x10000 ≤ off ∧ off < 0x30000 then mget s.qf.fences 0 ((off - 0x10000) / 8)
  else if 0x400000 ≤ off ∧ off < 0x500000 then tilePageReg s ((off - 0x400000) / 0x100) (off % 0x100)
  else 0

/-- The 8-byte register at offset `off`, a multiple of 8, of the control space of die index i; zero where none lies
(R36, R304). -/
def ctrlReg (s : State) (i off : Nat) : Word :=
  if i = 30 then 0
  else if 0x330000 ≤ off ∧ off < 0x331000 then wkReg s i (off - 0x330000)
  else if i < 16 then cdieReg s i off
  else if i < 28 then ldieReg s (i - 16) off
  else if i = 31 then hxCtrlReg s off
  else lodestarReg s off

/-- HX_STATUS (R309). -/
def hxStatus (s : State) : Word := toW (b2n s.hx.drsSent * 32 + s.hx.activeLs % 2 * 16 + s.hx.health % 16)

/-- A register of BAR0 below the mirror (R303, R309, R320). -/
def bar0Reg (s : State) (off : Nat) : Word :=
  if off < 0x1000000 then
    let x := getQ s (off / 0x1000)
    let o := off % 0x1000
    if o = 0x008 then x.ring
    else if o = 0x010 then x.qcfg
    else if o = 0x020 then queueStat x x.pending
    else if o = 0x028 then toW (x.tail % 2 ^ 32)
    else 0
  else
    let h := s.hx
    if off = 0x1000000 then hxStatus s
    else if off = 0x1000008 then toW (h.slice * 2 ^ 30)
    else if off = 0x1000010 then toW (h.droppedWrites * 2 ^ 48 + h.aborts * 2 ^ 32 + h.mirrorMiss * 65536 + h.bar0Bad)
    else if off = 0x1000018 then toW (h.trReqs.toNat * 2 ^ 32 + h.invOverflow % 65536 * 65536 + h.invals.length % 64)
    else if off = 0x1000020 then toW (h.invalLimit % 2 ^ 32)
    else 0

/-- Where a BAR0 offset of the mirror leads: die index and offset of its control space (R304). -/
def mirrorPlace (off : Nat) : Nat × Nat :=
  let o := off - 0x2000000
  (o / 0x100000, ([0, 0x200000, 0x280000, 0x300000] : List Nat).getD (o % 0x100000 / 0x40000) 0 + o % 0x40000)

/-- A die answers an access to its registers: HX always; a Lodestar while its firmware serves, in ROM none (R381); any other while its rail
is on and it is not in reset, its wake controller while the auxiliary input is good (R304, R376, R401). -/
def dieAnswers (s : State) (i off : Nat) : Bool :=
  if i ≥ 30 then true
  else if 0x330000 ≤ off ∧ off < 0x331000 then s.su.auxGood
  else if i ≥ 28 then lsManaged s
  else s.su.mainOk && !s.su.hold && (getW s i).wkState.toNat.testBit 1

/-- The bytes of a 4- or 8-byte read at `off` of a register's value. -/
def regBytes (v : Word) (off : Nat) (wide : Bool) : List Byte :=
  if wide then toLE 8 v.toNat else toLE 4 (v.toNat >>> (off % 8 * 8))

end Machine
end Sys2Proof
end

