-- ==== Sys2Proof/Machine/HostAccess.lean ====
section
/-!
DEFINITION. The host's accesses to the BARs and the D-states: BAR2 with the order of its writes, reads of BAR0, doorbells,
the meter window (R301, R304 to R308, R321, R322).
-/

namespace Sys2Proof
namespace Machine

/-! Accesses in arrival order (R306, R307, R321) -/

/-- A BAR2 write is discarded and counted (R306 Table 7). -/
def dropWrite (s : State) : State := { s with hx := { s.hx with droppedWrites := (s.hx.droppedWrites + 1) % 65536 } }

/-- A BAR2 read completes with Completer Abort and is counted (R306 Table 7). -/
def abortRead (s : State) : State := emit { s with hx := { s.hx with aborts := (s.hx.aborts + 1) % 65536 } } (.cpl .ca [])

/-- A BAR2 write of bytes at module address a, under the rows of Table 7 in their order; none while it waits for tokens
(R248, R306). -/
def bar2Write (s : State) (a : Nat) (bytes : List Byte) (errs : List SymErr) (inside : Bool) : Option State :=
  if s.hx.stopped ∨ !inside then some (dropWrite s)
  else
    let st := statusFrom s 31 a bytes.length
    if st.1 ≠ 0 then some (dropWrite st.2)
    else if permit s 3 = false then some (dropWrite s)
    else (cohWriteB s a bytes 0 errs).map (·.2)

/-- A BAR2 read of len bytes at module address a (R306). Bytes of poisoned sectors are unpredictable. -/
def bar2Read (s : State) (a len : Nat) (errs : List SymErr) (inside : Bool) : Option State :=
  if s.hx.stopped ∨ !inside then some (abortRead s)
  else
    (cohReadFrom s 31 a len 0 false errs).map (fun r =>
      if r.st ≠ 0 then abortRead r.s
      else if r.pois.any id then
        let g := r.s.draws
        emit { r.s with draws := g + 1 } (.cpl .ep ((r.bytes.zip r.pois).zipIdx.map (fun x =>
          if x.1.2 then Config.unwritten g x.2 else x.1.1)))
      else emit r.s (.cpl .ok r.bytes))

/-- A read of BAR0, aligned: HX and the doorbell pages answer at once; a die's register answers where its die does, else the
read waits for MIRROR_READ_TIMEOUT; an orphaned HX answers all ones (R303 to R305, R440). -/
def bar0Read (s : State) (off : Nat) (wide : Bool) : State :=
  let n := if wide then 8 else 4
  let al := off / 8 * 8
  if off < 0x2000000 then emit s (.cpl .ok (regBytes (bar0Reg s al) off wide))
  else
    let (i, o) := mirrorPlace al
    if s.hx.stopped then emit s (.cpl .ok (List.replicate n 0xFF#8))
    else if dieAnswers s i o then emit s (.cpl .ok (regBytes (ctrlReg s i o) off wide))
    else { s with hx := { s.hx with mirror := s.hx.mirror ++ [(i, n, s.now)] } }

/-- Perform a request of the host; none while it waits for tokens. -/
def hostPerform (s : State) : HostWait → Option State
  | .write a bytes errs inside => bar2Write s a bytes errs inside
  | .read a len errs inside => bar2Read s a len errs inside
  | .bar0 off wide => some (bar0Read s off wide)
  | .doorbell q tail => some (doorbell s q tail)

/-- Perform requests in their order, as far as none waits: those left, and the state. -/
def performWaits : List HostWait → State → List HostWait × State
  | [], s => ([], s)
  | w :: r, s =>
    match hostPerform s w with
    | some s' => performWaits r s'
    | none => (w :: r, s)

/-- The host's requests go on in arrival order (R307, R321; assumption 136). -/
def hostDrain (s : State) : State :=
  let x := performWaits s.hx.waiting s
  { x.2 with hx := { x.2.hx with waiting := x.1 } }

/-- A request of the host arrives behind those that wait. -/
def hostArrive (s : State) (w : HostWait) : State :=
  let s := traffic s
  hostDrain { s with hx := { s.hx with waiting := s.hx.waiting ++ [w] } }

/-- The module address of a BAR2 offset, and whether the request lies within the window and within 512 bytes (R306). -/
def bar2Place (s : State) (off len : Nat) : Nat × Bool :=
  (s.hx.slice * 0x40000000 + off, decide (len ≤ 512) && decide (off + len ≤ 0x40000000))

/-- BAR2_READ of `len` bytes of a window. BAR4 returns the buffer that the meter pushed, zero before its first push (R301,
R306, R308, R425; assumption 137). -/
def execBar2Read (off : WindowOff) (len : Nat) (errs : List SymErr) (s : State) : Host.Outcome State Fault Refusal :=
  .next (
    if !hostLive s then emit s (.cpl .ur [])
    else
      match off with
      | .bar2 off => hostArrive s (.read (bar2Place s off len).1 len errs (bar2Place s off len).2)
      | .bar4 off => emit (traffic s) (.cpl .ok ((List.range len).map (fun i => s.fm.window.getD (off.val + i) 0#8))))

/-- BAR2_WRITE at window offset `off` (R301, R306). -/
def execBar2Write (off : Nat) (bytes : List Byte) (errs : List SymErr) (s : State) : Host.Outcome State Fault Refusal :=
  .next (
    if !hostLive s then s
    else hostArrive s (.write (bar2Place s off bytes.length).1 bytes errs (bar2Place s off bytes.length).2))

/-- MIRROR_READ: a host read of BAR0, aligned, of 4 or 8 bytes; it completes after the BAR2 writes that arrived before it
(R303 to R305, R307). -/
def execMirrorRead (off : Fin 67108864) (wide : Bool) (s : State) : Host.Outcome State Fault Refusal :=
  .next (
    if off.val % (if wide then 8 else 4) ≠ 0 then s
    else if !hostLive s then emit s (.cpl .ur [])
    else hostArrive s (.bar0 off.val wide))

/-- DOORBELL: a host write of bits [31:0] of QF_DOORBELL. It takes effect after the BAR2 writes that arrived before it (R301,
R320 to R322). -/
def execDoorbell (q : QueueId) (tail : BitVec 32) (s : State) : Host.Outcome State Fault Refusal :=
  .next (if hostLive s then hostArrive s (.doorbell q.val tail.toNat) else s)

/-- BAR4_WRITE: a write to the meter window is discarded (R301, R308). -/
def execBar4Write (s : State) : Host.Outcome State Fault Refusal :=
  .next (hostAct s id)

/-! D-states (R301) -/

/-- The watchdogs of all queues see a change of D-state (R333). -/
def requeue (s : State) : State := s.qf.queues.foldl (fun s p => wdTouch s p.1) s

/-- D3HOT_ENTRY (R301). -/
def execD3hotEntry (s : State) : Host.Outcome State Fault Refusal :=
  .next (if s.hx.ready then requeue { s with hx := { s.hx with d3hot := true } } else s)

/-- A request that D3hot held back is sent. -/
def resend (s : State) : Deferred → State
  | .ring q need => askRing s q need
  | .trans q idx => translate s q idx 4098
  | .copy q idx => after s (execCopy (Fin.ofNat 4096 q) (BitVec.ofNat 32 idx) [] s)
  | .launch q => after s (execLaunchStart (Fin.ofNat 4096 q) s)
  | .inval => invalDrain s 33
  | .receipt r => after s (execReceiptPost (Fin.ofNat 64 r) s)
  | .words q => after s (execQueueWordPost (Fin.ofNat 4096 q) s)
  | .global => after s (execGlobalBlockPost s)
  | .errors => after s (execErrorRecordPost s)

/-- D0_RETURN: the requests that waited are sent in their original order (R301). -/
def execD0Return (s : State) : Host.Outcome State Fault Refusal :=
  .next (
    if !s.hx.d3hot then s
    else s.hx.deferred.foldl resend (requeue { s with hx := { s.hx with d3hot := false, deferred := [] } }))

end Machine
end Sys2Proof
end

