-- ==== Sys2Proof/Machine/Regs.lean ====
section
/-!
DEFINITION. Writes of the registers of the dies and of HX by address (R36, R63, R251, R279, R296, R303 to R309, R320, R331,
R335, R376, R401, R444, R456): what a write of each agent does, under the access types of R4.
-/

namespace Sys2Proof
namespace Machine

/-! Writes -/

/-- The value that a write of 4 or 8 bytes at `off` gives a register that held `old`: bits not covered stay. -/
def regMerge (old : Word) (off : Nat) (wide : Bool) (v : Word) : Word :=
  if wide then v
  else if off % 8 = 4 then toW (old.toNat % 2 ^ 32 + v.toNat % 2 ^ 32 * 2 ^ 32)
  else toW (old.toNat / 2 ^ 32 * 2 ^ 32 + v.toNat % 2 ^ 32)

/-- A write with the Lodestar's authority: the active Lodestar, or an INVASIVE debug session (R251, R279, R376, R390). -/
def byLs (a : Agent) : Bool := a == .activeLs || a == .debug

/-- A write with the host's authority. -/
def byHost (a : Agent) : Bool := a == .host || byLs a

/-- The QF registers take writes of the host, of tiles and of a debug session (R335). -/
def byQf (a : Agent) : Bool := match a with | .host => true | .tile _ => true | .debug => true | _ => false

/-- A write of a stack-cache or DRAM-controller register (R251). -/
def cdieWrite (s : State) (a : Agent) (d off : Nat) (wide : Bool) (v : Word) : State :=
  let D := getD s d
  let al := off / 8 * 8
  if !byLs a then s
  else if al = 0x300020 then
    let w := regMerge D.dcDiemark off wide v
    if popc 10 (wfld w 9 0) > 2 then s
    else setD s d { D with dcDiemark := toW (wfld w 31 24 * 2 ^ 24 + wfld w 9 0) }
  else if al = 0x300028 then
    setD s d { D with dcScrub := wset D.dcScrub 20 0 (wfld (regMerge D.dcScrub off wide v) 20 0) }
  else s

/-- UE_NORMP or UE_NORMU of table k of one engine is set (R292, R296). -/
def normWrite (s : State) (n k : Nat) (u : Bool) (off : Nat) (wide : Bool) (v : Word) : State :=
  let E := getE s n
  let T := ueTab E k
  let T := if u then { T with normU := regMerge T.normU off wide v } else { T with normP := regMerge T.normP off wide v }
  setE s n { E with tabs := mset E.tabs k T }

/-- A write of a port or update-engine register of link die n (R279, R296). -/
def ldieWrite (s : State) (a : Agent) (n off : Nat) (wide : Bool) (v : Word) : State :=
  let al := off / 8 * 8
  let one := regMerge 0 off wide v
  let ue := if a = .debug then Agent.activeLs else a
  if al = 0x200800 then
    if byLs a then timeoutWrite s n (regMerge (toW (s.link.timeout.getD n 0)) off wide v) else s
  else if al = 0x300008 then
    if ueWriter s ue then
      { s with link := { s.link with ueDir := toW (wfld (regMerge s.link.ueDir off wide v) 47 13 * 2 ^ 13) } } else s
  else if al = 0x300010 then after s (execUeReload ue one s)
  else if al = 0x300018 then after s (execUeUnpark ue one s)
  else if 0x301000 ≤ al ∧ al < 0x302000 then
    let k := (al - 0x301000) / 64
    if !ueWriter s ue then s
    else if al % 64 = 0x18 then normWrite s n k false off wide v
    else if al % 64 = 0x20 then normWrite s n k true off wide v
    else s
  else s

/-- A write of a tile page by a tile, or of its delivery ring by a debug session (R331). -/
def tilePageWrite (s : State) (a : Agent) (q : QueueId) (off : Nat) (wide : Bool) (v : Word) (errs : List SymErr) : State :=
  let al := off / 8 * 8
  let low := wide || off % 8 == 0
  let one := regMerge 0 off wide v
  let x := getQ s q.val
  let may := match a with | .tile t => tilePage s q.val t.val | .debug => true | _ => false
  if !may then s
  else if al = 0x08 then
    let w := regMerge x.dlv off wide v
    health (setQ s q.val { x with dlv := toW (wfld w 47 8 * 256 + wfld w 3 0) })
  else if al = 0x18 then
    if low then setQ s q.val { x with cons := wfld one 31 0 } else s
  else
    match a with
    | .tile t =>
      if al = 0x00 then if low then after s (execTileDoorbell t q (one.setWidth 32) s) else s
      else if al = 0x20 then
        if low then after s (execSvcDone t q (BitVec.ofNat 16 (wfld one 47 32)) (one.setWidth 32) s) else s
      else if al = 0x28 then
        if wide then after s (execQfPost t q (BitVec.ofNat 6 (wfld v 53 48)) (BitVec.ofNat 42 (wfld v 47 6)) errs s) else s
      else s
    | _ => s

/-- A write of HX control space (R331, R335). -/
def hxCtrlWrite (s : State) (a : Agent) (off : Nat) (wide : Bool) (v : Word) (errs : List SymErr) : State :=
  let al := off / 8 * 8
  let one := regMerge 0 off wide v
  let low := wide || off % 8 == 0
  if 0x400000 ≤ al ∧ al < 0x500000 then
    tilePageWrite s a (Fin.ofNat 4096 ((al - 0x400000) / 0x100)) (off % 0x100) wide v errs
  else if !byQf a then s
  else if al = 0 then after s (execLetterboxRegister ⟨a, regMerge s.qf.lb off wide v⟩ s)
  else if al = 8 then
    globalDirty (modF s (fun f => { f with lbSize := toW (wfld (regMerge f.lbSize off wide v) 19 0) }))
  else if al = 0x10 then if low then after s (execErrConsWrite ⟨a, one.setWidth 32⟩ s) else s
  else if 0x100 ≤ al ∧ al < 0x300 then
    let r := (al - 0x100) / 8
    let w := regMerge (s.qf.rring.getD r 0) off wide v
    after s (execRringConfig (Fin.ofNat 64 r) ⟨a, w⟩ s)
  else if 0x300 ≤ al ∧ al < 0x500 then
    if low then after s (execRringConsWrite (Fin.ofNat 64 ((al - 0x300) / 8)) ⟨a, one.setWidth 32⟩ s) else s
  else if 0x10000 ≤ al ∧ al < 0x30000 then
    let f := (al - 0x10000) / 8
    after s (execFenceWrite (Fin.ofNat 16384 f) ⟨a, regMerge (mget s.qf.fences 0 f) off wide v⟩ s)
  else if al = 0x30000 then if low then after s (execFenceClr ⟨a, Fin.ofNat 16384 (wfld one 13 0)⟩ s) else s
  else s

/-- A write of a Lodestar register: the requests and commands that take writes (R368, R437, R444). -/
def lodestarWrite (s : State) (a : Agent) (off : Nat) (wide : Bool) (v : Word) : State :=
  let al := off / 8 * 8
  let one := regMerge 0 off wide v
  if !byHost a ∨ !lsAnswers s then s
  else if al = 0x2008 then
    if wfld one 1 0 = 1 then after s (execM2EnterReq s) else if wfld one 1 0 = 2 then after s (execM0ReturnReq s) else s
  else if al = 0x4010 then after s (execFenceReleaseTest (one.setWidth 16) s)
  else if al = 0x4020 then { s with rec_ := { s.rec_ with avail := regMerge s.rec_.avail off wide v } }
  else s

/-- A write of a wake-controller register: WK_STATE.OVERPOWER is cleared by a one (R371, R376). -/
def wkWrite (s : State) (a : Agent) (i off : Nat) (wide : Bool) (v : Word) : State :=
  if byLs a ∧ off / 8 * 8 = 8 ∧ (regMerge 0 off wide v).toNat.testBit 3 then
    if i < 16 then after s (execOverpowerClear (Fin.ofNat 16 i) s) else setWk s i 3 false
  else s

/-- A write of 4 or 8 bytes at an offset of the control space of die index i by an agent: a register with a command of its
own acts as that command (R4, R36). -/
def ctrlWrite (s : State) (a : Agent) (i off : Nat) (wide : Bool) (v : Word) (errs : List SymErr) : State :=
  if i = 30 ∨ !dieAnswers s i off ∨ off % (if wide then 8 else 4) ≠ 0 then s
  else if 0x330000 ≤ off ∧ off < 0x331000 then wkWrite s a i (off - 0x330000) wide v
  else if i < 16 then cdieWrite s a i off wide v
  else if i < 28 then ldieWrite s a (i - 16) off wide v
  else if i = 31 then hxCtrlWrite s a off wide v errs
  else lodestarWrite s a off wide v

/-- A host write of a doorbell page (R320, R323): a command is one set bit. -/
def pageWrite (s : State) (q : QueueId) (off : Nat) (wide : Bool) (v : Word) : State :=
  let al := off / 8 * 8
  let one := regMerge 0 off wide v
  let x := getQ s q.val
  if al = 0x000 then if wide ∨ off % 8 = 0 then after s (execDoorbell q (one.setWidth 32) s) else s
  else if al = 0x008 then
    if x.state ≠ 0 then s
    else
      let w := regMerge x.ring off wide v
      setQ s q.val { x with ring := toW (wfld w 63 12 * 4096 + wfld w 4 0) }
  else if al = 0x010 then
    if x.state ≠ 0 then s
    else
      let w := regMerge x.qcfg off wide v
      setQ s q.val { x with qcfg := toW (wfld w 39 18 * 2 ^ 18 + wfld w 13 8 * 256) }
  else if al = 0x018 then
    match wfld one 4 0 with
    | 1 => after s (execQueueEnable q s)
    | 2 => after s (execQueueDisable q s)
    | 4 => after s (execQueueResume q s)
    | 8 => after s (execQueueCancel q s)
    | 16 => after s (execQueueReset q s)
    | _ => s
  else s

/-- A host write of BAR0 (R303 to R305, R309, R456). -/
def bar0Write (s : State) (off : Nat) (wide : Bool) (v : Word) : State :=
  let one := regMerge 0 off wide v
  let al := off / 8 * 8
  if off < 0x1000000 then pageWrite s (Fin.ofNat 4096 (off / 0x1000)) (off % 0x1000) wide v
  else if al = 0x1000008 then
    { s with hx := { s.hx with slice := wfld (regMerge (toW (s.hx.slice * 2 ^ 30)) off wide v) 47 30 } }
  else if al = 0x1000020 then
    if wide ∨ off % 8 = 0 then { s with hx := { s.hx with invalLimit := max 125000 (wfld one 31 0) } } else s
  else if al = 0x1000028 then after s (execHxReset one s)
  else if off < 0x2000000 then s
  else if s.hx.stopped then s
  else
    let (i, o) := mirrorPlace off
    ctrlWrite s .host i o wide v []

/-- REGISTER_WRITE: a write of 4 or 8 bytes, aligned, to a register: the host's through BAR0, any other agent's to a die
control space (R4, R5, R8, R304, R305). A write that its sender cannot make leaves the state unchanged (assumption 3). -/
def execRegisterWrite (a : Agent) (p : RegPlace) (wide : Bool) (v : BitVec 64) (s : State) :
    Host.Outcome State Fault Refusal :=
  .next (
    match p with
    | .bar0 off =>
      if a ≠ .host ∨ off.val % (if wide then 8 else 4) ≠ 0 then s
      else hostAct s fun s => bar0Write s off.val wide v
    | .ctrl i off => if a = .host ∨ a = .debug then s else ctrlWrite s a i.val off.val wide v [])

end Machine
end Sys2Proof
end

