-- ==== Sys2Proof/Machine/StackRequest.lean ====
section
/-!
DEFINITION. A tile's requests at their points of coherence: home stack caches, tile store windows, control spaces, other
modules (R37 to R40, R221, R225, R227, R233, R257 to R260, R267), and a stack's patrol, thermometers and tokens (R245 to
R248).
-/

namespace Sys2Proof
namespace Machine

/-! Requests of a tile -/

/-- The request holds a tag: it has left by a link (R259). -/
def sentBy (s : State) (o : TagOwner) : Bool := s.link.ports.any (fun p => p.2.tags.any (fun e => e.owner == o))

/-- Two requests of a tile go the same way: to one die, or to one other module (R227). -/
def sameWay (s : State) (a b : Nat) : Bool := destOf s a == destOf s b || targetDie s a == targetDie s b

/-- An earlier request of tile t to the same home or die has not been performed or sent (R227), or the path to it changes
(R257). `n` is the request's number. -/
def mustWait (s : State) (t n a : Nat) : Bool :=
  let T := getT s t
  (T.reads.any (fun r => r.answer.isNone && r.seq < n && sameWay s r.addr a && !sentBy s (.read t r.seq)))
    || (T.writes.any (fun w => w.status.isNone && w.ord < n && sameWay s w.addr a && !sentBy s (.write t w.ord)))
    || (match destOf s a with
        | some k => pathWaits s t k n && (match wayTo s (t / 64) k with | .ok _ => true | .error _ => false)
        | none => false)

/-- Why a request of tile t to address a cannot be made: the cause code, and the die at which no egress is usable (R39,
R257 to R259, R277). -/
def requestBlocked (s : State) (t a : Nat) : Option (Nat × Option (Nat × Nat)) :=
  match destOf s a with
  | none => none
  | some k =>
    match wayTo s (t / 64) k with
    | .error none => some (0x12, none)
    | .error (some x) => some (0x11, some (x, (destDie s k).getD 0))
    | .ok _ => if !isFabric a && placeFenced s (placeOf s a) then some (0x11, none) else none

/-- A read or atomic of the tile has its answer. -/
def answerRead (s : State) (t seq : Nat) (bs : List Byte) (pois : Bool) (code : Nat) : State :=
  modT s t (fun T => { T with reads := T.reads.map (fun r => if r.seq = seq then { r with answer := some (bs, pois, code) } else r) })

/-- A write of the tile is acknowledged with a cause code, 0 for performed. -/
def answerWrite (s : State) (t ord code : Nat) : State :=
  modT s t (fun T => { T with writes := T.writes.map (fun w => if w.ord = ord then { w with status := some code } else w) })

/-- Free bytes: an address that no longer names anything when its request arrives reads unpredictably (R3, R39). -/
def freeBytes (s : State) (n : Nat) : List Byte × State :=
  ((List.range n).map (fun i => Config.unwritten s.draws i), { s with draws := s.draws + 1 })

/-- The hint a read is performed with: 11 without W permission is 01 (R236). -/
def readHint (r : ReadReq) : Nat := if r.hint = 3 ∧ !r.w then 1 else r.hint

/-- The transaction of a read or atomic for another module (R236, R267, R268). -/
def readTxn (s : State) (r : ReadReq) : Txn :=
  let base := copyTxn s 1 (r.addr % 2 ^ 60) r.n 0 (readHint r) 0 noOperand []
  match r.atomic with
  | some (.amo op _ src) => { base with type := 3, op := idxOf amoOps op, operand := toLE 8 src }
  | some (.cas n cmp src) =>
    { base with type := 3, op := 9, operand := toLE 8 src, dslots := 1, data := [toLE n cmp ++ List.replicate (32 - n) 0#8] }
  | _ => base

/-- A read or atomic of tile t at a control-space register; none while the die does not answer. -/
def ctrlAccess (s : State) (t i off : Nat) (r : ReadReq) : Option State :=
  let wide := r.n == 8
  if !dieAnswers s i off then none
  else
    let v := ctrlReg s i (off / 8 * 8)
    let old := regBytes v off wide
    let s := answerRead s t r.seq old false 0
    match r.atomic with
    | none => some s
    | some k =>
      match atomicNew k (ofLE old) with
      | none => some s
      | some x => some (ctrlWrite s (.tile (Fin.ofNat 1024 t)) i off wide (toW x) [])

/-- Perform a read or atomic of tile t that waits for nothing; none while it waits for tokens, a tag or a die (R233,
R243, R248, R259). -/
def performRead (s : State) (t : Nat) (r : ReadReq) (errs : List SymErr) : Option State :=
  match requestBlocked s t r.addr with
  | some (code, x) => some (answerRead (noEgress s r.addr x) t r.seq (List.replicate r.n 0#8) false code)
  | none =>
    if isFabric r.addr then
      let x := readTxn s r
      (originPort s x.dst).bind (fun p =>
        (sendRequest s t p x (.read t r.seq)).map (fun s => modT s t (fun T => actAdd T 5 x.dslots)))
    else
      match placeOf s r.addr with
      | .hole =>
        let f := freeBytes s r.n
        some (answerRead f.2 t r.seq f.1 false 0)
      | .ctrl i off => ctrlAccess s t i off r
      | _ =>
        match r.atomic with
        | some k => (cohAtomic s r.addr k r.hint errs).map (fun (_, old, p, s) =>
            answerRead (countSectors s t r.addr r.n) t r.seq old p 0)
        | none => (cohRead s r.addr r.n (readHint r) true errs).map (fun x =>
            answerRead (countSectors x.s t r.addr r.n) t r.seq x.bytes (x.pois.any id) 0)

/-- The WRITE transaction of a run of bytes at fabric address a (R267, R268). -/
def writeTxn (s : State) (a : Nat) (bs : List Byte) (hint : Nat) : Txn :=
  let pre := List.replicate (a % 32) 0#8
  let all := pre ++ bs
  let n := ceilDiv all.length 32
  copyTxn s 2 a bs.length 0 hint 0 noOperand ((List.range n).map (fun i => slice all (32 * i) 32))

/-- A write of tile t to another module: one WRITE for each run of its bytes, since a WRITE covers all bytes of its range
(R268). The first keeps the write's number. None while tags are lacking. -/
def sendWrite (s : State) (t : Nat) (w : WriteReq) (p : Nat) : Option State :=
  match byteRuns 0 w.bytes with
  | [] => some (answerWrite s t w.ord 0)
  | (o, b) :: rest =>
    if (getP s p).tags.length + rest.length + 1 > 2048 then none
    else
      let T := getT s t
      let mk := fun (ord o : Nat) (b : List Byte) => { w with ord := ord, addr := w.addr + o, bytes := b.map some }
      let more := rest.zipIdx.map (fun x => mk (T.seq + 1 + x.2) x.1.1 x.1.2)
      let parts := mk w.ord o b :: more
      let s := setT s t { T with
        seq := T.seq + rest.length
        writes := (T.writes.map (fun x => if x.ord = w.ord then mk w.ord o b else x)) ++ more }
      parts.foldl (fun (acc : Option State) x => acc.bind (fun s =>
        let tx := writeTxn s (x.addr % 2 ^ 60) (x.bytes.map (fun b => b.getD 0#8)) w.hint
        (sendRequest s t p tx (.write t x.ord)).map (fun s => modT s t (fun T => actAdd T 5 tx.dslots)))) (some s)

/-- A write of tile t to registers: each 8-byte register in ascending order takes its whole bytes, or one half (R36). -/
def ctrlStore (s : State) (t i off : Nat) (bs : List (Option Byte)) (errs : List SymErr) : State :=
  (List.range (bs.length / 4 + 1)).foldl (fun s k =>
    let at_ := fun (o : Nat) (n : Nat) => if off ≤ o then (bs.drop (o - off)).take n else []
    let o := (off / 4 + k) * 4
    let whole := fun (l : List (Option Byte)) (n : Nat) => l.length == n && l.all Option.isSome
    let val := fun (l : List (Option Byte)) => toW (ofLE (l.map (fun b => b.getD 0#8)))
    let put := fun (s : State) (o : Nat) (wide : Bool) (l : List (Option Byte)) =>
      ctrlWrite s (.tile (Fin.ofNat 1024 t)) i o wide (val l) errs
    if o % 8 = 0 ∧ whole (at_ o 8) 8 then put s o true (at_ o 8)
    else if o % 8 = 4 ∧ o ≥ off + 4 ∧ whole (at_ (o - 4) 8) 8 then s
    else if whole (at_ o 4) 4 then put s o false (at_ o 4)
    else s) s

/-- Perform a write of tile t that waits for nothing; none while it waits for tokens, tags or a die (R225, R233, R259). -/
def performWrite (s : State) (t : Nat) (w : WriteReq) (errs : List SymErr) : Option State :=
  match requestBlocked s t w.addr with
  | some (code, x) => some (answerWrite (noEgress s w.addr x) t w.ord code)
  | none =>
    if isFabric w.addr then (originPort s (fld w.addr 59 48)).bind (fun p => sendWrite s t w p)
    else
      match placeOf s w.addr with
      | .hole => some (answerWrite s t w.ord 0)
      | .ctrl i off => if !dieAnswers s i off then none else some (answerWrite (ctrlStore s t i off w.bytes errs) t w.ord 0)
      | _ => (cohWrite s w.addr w.bytes (w.bytes.map (fun _ => false)) w.hint errs).map (fun r =>
          answerWrite (countSectors r.2 t w.addr w.bytes.length) t w.ord (if r.1 = 0 then 0 else 0x11))

/-- STACK_CACHE_REQUEST: a request of the tile, named by its place among the tile's, reaches its point of coherence and is
performed there, in the order in which the tile sent its requests to that place (R227, R233). -/
def execStackCacheRequest (t : TileId) (r : HomeReq) (errs : List SymErr) (s : State) : Host.Outcome State Fault Refusal :=
  .next (
    let T := getT s t.val
    match r with
    | .read k =>
      match T.reads[k]? with
      | none => s
      | some x =>
        if x.answer.isSome || sentBy s (.read t.val x.seq) || mustWait s t.val x.seq x.addr then s
        else ((performRead s t.val x errs).map (fun s' => modT s' t.val (sentNow s.now (readCtx T x)))).getD s
    | .write k =>
      match T.writes[k]? with
      | none => s
      | some x =>
        if x.status.isSome || sentBy s (.write t.val x.ord) || mustWait s t.val x.ord x.addr then s
        else ((performWrite s t.val x errs).map (fun s' => modT s' t.val (sentNow s.now (writeCtx T x)))).getD s)

/-! The stack controller (R245 to R248) -/

/-- The stack of die d works: its power is on, and it is neither in self-refresh nor stopped, as it is in M2 and while its
domain is fenced (R245, R247, R367, R436 Table 6 step 4). -/
def stackOn (s : State) (d : Nat) : Bool :=
  s.su.mainOk && !s.su.hold && (getW s d).wkState.toNat.testBit 1 && decide (s.pw.mstate ≠ 2) && decide (fenceCause s d = 0)

/-- The module address of a stack offset, or, where no region uses it, a name of its own outside the address space. -/
def stackName (s : State) (d off : Nat) : Nat := (unhome s d off).getD (2 ^ 52 + d * 2 ^ 40 + off)

/-- The patrol's decode of a line: its sectors in ascending order; a sector dirty in the stack cache is decoded and not
written back, so its coherent value stays (R245). -/
def patrolLine (s : State) (d a off : Nat) (errs : List SymErr) : State :=
  let l := (mget (getD s d).sc [] ((off / 128) % 16384)).find? (fun l => l.line == a / 128)
  let dirty := fun (i : Nat) => (l.map (fun l => l.dirty.getD i false)).getD false
  (List.range 4).foldl (fun s0 i =>
    let s := takeSector s0 d (a + 32 * i) (off + 32 * i) errs (!dirty i)
    if dirty i then { s with mem := s0.mem, mpoison := s0.mpoison } else s) s

/-- PATROL_READ: every INTERVAL ticks one line is read, decoded and corrected; it takes 4 tokens while throttled; `inner`
is what the DRAM dies corrected themselves; at the end of the stack the pass begins again (R240, R242, R245, R248). -/
def execPatrolRead (d : CDie) (inner : Nat) (errs : List SymErr) (s : State) : Host.Outcome State Fault Refusal :=
  .next (
    let D := getD s d.val
    let n := wfld D.dcScrub 20 0
    if n = 0 ∨ s.now < D.patrolMark + n ∨ !stackOn s d.val ∨ !tokensFor s d.val 4 then s
    else
      let line := wfld D.dcScrub 60 32
      let off := 128 * line
      let s := patrolLine (spend s d.val 4) d.val (stackName s d.val off) off errs
      let D := getD s d.val
      let next := (line + 1) % 2 ^ 29
      setD s d.val { D with
        patrolMark := s.now
        dcScrub := wset D.dcScrub 60 32 next
        dcEcc := wset D.dcEcc 47 32 (wfld D.dcEcc 47 32 + inner)
        passCorr := if next = 0 then List.replicate 10 0 else D.passCorr })

/-- A die's reading as a sample takes it: what the sensor gives, or 100 degrees from the fourth sample without a reading;
none before that (R246). -/
def takenTemp (r : Option (BitVec 8)) (missed : Nat) : Option Nat :=
  match r with
  | some v => some v.toNat
  | none => if missed ≥ 4 then some 100 else none

/-- The throttle after a sample (R247 Table 8): `hot` is the hottest reading, `cool` that every die has read below 90
degrees for 125,000 ticks, `late` that the bucket has been at 50 % for 125,000 ticks. -/
def nextThrottle (t hot : Nat) (cool late : Bool) : Nat :=
  if hot ≥ 100 ∨ (t = 1 ∧ hot ≥ 95 ∧ late) then 2
  else if t = 2 then if cool then 1 else 2
  else if hot ≥ 95 then 1
  else if t = 1 then if cool then 0 else 1
  else 0

/-- TEMP_SAMPLE: the ten stack dies of compute die d are sampled, every 1,250 ticks; DC_TEMP and DC_THERM show the readings,
and the hottest governs refresh, throttle and the domain's thermal fence (R246, R247, R430, R436). -/
def execTempSample (d : CDie) (readings : List (Option (BitVec 8))) (s : State) : Host.Outcome State Fault Refusal :=
  .next (
    if !s.su.mainOk ∨ s.su.hold ∨ s.pw.mstate = 2 then s
    else
      let D := getD s d.val
      let rd := fun (i : Nat) => readings.getD i none
      let missed := (List.range 10).map (fun i => if (rd i).isSome then 0 else min 4 (D.invalid.getD i 0 + 1))
      let temp := (List.range 10).map (fun i => takenTemp (rd i) (missed.getD i 0))
      let shown := fun (i : Nat) => match rd i with | some v => v.toNat | none => 0xFF
      let best := (List.range 10).foldl (fun (b : Option (Nat × Nat)) i =>
        match temp.getD i none, b with
        | some v, some (_, m) => if v > m then some (i, v) else b
        | some v, none => some (i, v)
        | none, b => b) none
      let below := fun (n : Nat) => temp.all (fun x => match x with | some v => decide (v < n) | none => false)
      let hot := (best.map (·.2)).getD 0
      let cf := if below 90 then (if D.coolFrom = 0 then max 1 s.now else D.coolFrom) else 0
      let cool := decide (cf ≠ 0) && decide (s.now ≥ cf + 125000)
      let t := wfld D.dcTherm 2 1
      let t' := nextThrottle t hot cool (decide (s.now ≥ D.hotFrom + 125000))
      let th := D.dcTherm
      let th := match best with | some (i, v) => wset (wset th 39 32 v) 31 28 i | none => th
      let th := wset th 4 4 (b2n (missed.any (fun m => m ≥ 4)))
      let th := wset th 2 1 t'
      let th := wset th 0 0 (if hot ≥ 85 then 1 else if below 82 then 0 else wfld th 0 0)
      let s1 := setD s d.val { D with
        invalid := missed
        dcTemp0 := toW (ofLE ((List.range 8).map (fun i => BitVec.ofNat 8 (shown i))))
        dcTemp1 := toW (ofLE [BitVec.ofNat 8 (shown 8), BitVec.ofNat 8 (shown 9)])
        dcTherm := th
        coolFrom := if t' = t then cf else if below 90 then max 1 s.now else 0
        hotFrom := if t' = 1 ∧ t ≠ 1 then s.now else D.hotFrom }
      let s1 := (List.range 10).foldl (fun s i =>
        if missed.getD i 0 = 4 ∧ D.invalid.getD i 0 < 4 then postErr s d.val 0 0x0204 d.val 0 (toLE 1 i) else s) s1
      if hot ≥ 105 ∧ fenceCause s1 d.val ≠ 1 ∧ fenceCause s1 d.val ≠ 2 then
        let E := getD s1 d.val
        let s2 := setD s1 d.val { E with dcTherm := wset E.dcTherm 3 3 1 }
        domainFence s2 d.val 1 (fun s => postErr s d.val 2 0x0301 d.val 0 (toLE 1 ((best.map (·.1)).getD 0) ++ toLE 1 hot))
      else s1)

/-- TOKEN_REFILL: while the stack is throttled each AON tick adds its tokens, up to one tick's addition (R248). -/
def execTokenRefill (d : CDie) (s : State) : Host.Outcome State Fault Refusal :=
  .next (
    let add := match throttle s d.val with | 0 => 0 | 1 => 5120 | _ => 2560
    if add = 0 then s else setD s d.val { getD s d.val with tokens := min add ((getD s d.val).tokens + add) })

end Machine
end Sys2Proof
end

