-- ==== Sys2Proof/Machine/Arbiter.lean ====
section
/-!
DEFINITION. The arbiters of the meshes and links: census-weighted rounds of requests, round-robin of responses, expiry of
a census register (R253, R254, R260, R261).
-/

namespace Sys2Proof
namespace Machine

/-! Packets (R253, R260) -/

/-- A request packet: the die and router it starts at, the input by which it enters there, what it goes to, its beats and
the census stamped at its origin. -/
structure Packet where
  die : Nat
  router : Nat
  dest : Dest
  /-- The module address it names; of a request to another module, any. -/
  addr : Nat
  beats : Nat
  census : Nat
deriving DecidableEq, Repr

/-- Beats of a request packet: one without data, two with (R253). -/
def beatsOf (data : Bool) : Nat := if data then 2 else 1

/-- The packet of a request by tile t to an address, with or without data. -/
def tilePacket (s : State) (t a : Nat) (data : Bool) : Option Packet :=
  (destOf s a).map (fun k => { die := t / 64, router := t % 64, dest := k, addr := a, beats := beatsOf data, census := tileCensus (getT s t) s.now })

/-- The address by which the package knows an address of a COPY: one of this module, or a fabric address. -/
def copyAddr (s : State) (space a : Nat) : Nat := if leaves s space a then 2 ^ 60 + a % 2 ^ 60 else a % 2 ^ 48

/-- The packet that a reference names, where the state holds it. -/
def packetOf (s : State) : PktRef → Option Packet
  | .tile t (.read k) => ((getT s t).reads[k]?).bind (fun r => tilePacket s t r.addr r.atomic.isSome)
  | .tile t (.write k) => ((getT s t).writes[k]?).bind (fun w => tilePacket s t w.addr true)
  | .copyRead q idx u i => (getDesc s q idx.toNat).bind (fun d =>
      ((unitSrc d u)[i]?).bind (fun p => if p.1 = 1 then none else tilePacket s (copyEngine d) (copyAddr s p.1 p.2.1) false))
  | .copyWrite q idx u l => (getDesc s q idx.toNat).bind (fun d =>
      let x := unitDst d u ((unitSrc d u).map (fun p => (List.replicate p.2.2 0#8, [])))
      ((linesOf x.1 x.2.1.length)[l]?).bind (fun p =>
        if dstSpace d = 1 then none else tilePacket s (copyEngine d) (copyAddr s (dstSpace d) p.1) true))
  | .link p k => ((getP s p).rxQ[k]?).bind (fun x =>
      if isResponse x.type then none
      else
        let k := if x.dst = ownId s then placeDie (placeOf s x.addr) else some (32 + x.dst)
        k.map (fun k => { die := 16 + p.val / 2, router := 0, dest := k, addr := x.addr, beats := beatsOf (!x.data.isEmpty), census := x.census }))
  | .ring q => if ringLocal (getQ s q) then
      (placeDie (placeOf s (entryAddr (getQ s q) (getQ s q).head))).map (fun k =>
        { die := 31, router := 0, dest := k, addr := entryAddr (getQ s q) (getQ s q).head, beats := 1, census := queueCensus s })
      else none
  | .engine l k => ((getE s l).waiting[k]?).bind (fun x =>
      (placeDie (placeOf s x.addr)).map (fun j => { die := 16 + l.val, router := 0, dest := j, addr := x.addr, beats := 1, census := 1 }))

/-- The routers that a packet crosses as a request, or its response as it comes back (R254, R256). -/
def packetRoute (s : State) (response : Bool) (x : Packet) : List Hop :=
  match destDie s x.dest with
  | none => []
  | some d =>
    let (b, out) := if x.dest < 32 then placeRouter (placeOf s x.addr) else (0, 0)
    if response then
      match pathOf s d x.die with
      | .ok p => routeHops true d b p x.router 5
      | .error _ => []
    else
      match pathOf s x.die d with
      | .ok p => routeHops false x.die x.router p b out
      | .error _ => []

/-- A packet at one of the routers it crosses: the input by which it comes, and its census on arrival (R260). -/
def arrivalAt (s : State) (response : Bool) (x : Packet) (d r out : Nat) : Option (Nat × Nat) :=
  let hops := packetRoute s response x
  (hops.findIdx? (fun h => h.die == d && h.router == r && h.out == out)).bind (fun n =>
    (hops[n]?).map (fun h => (h.inp, carried s (hops.take n) x.census)))

/-! Rounds (R261) -/

/-- Send packets of one input while its deficit covers its head: what is left of deficit and queue, and the number
sent. -/
def drrSend (def_ : Nat) : List (Nat × Nat) → Nat × List (Nat × Nat) × Nat
  | [] => (def_, [], 0)
  | (b, c) :: r =>
    if def_ ≥ b then
      let x := drrSend (def_ - b) r
      (x.1, x.2.1, x.2.2 + 1)
    else (def_, (b, c) :: r, 0)

/-- One input of `drr_round`: deficit, queue and packets sent (R261). -/
def drrInput (c d : Nat) (q : List (Nat × Nat)) : Nat × List (Nat × Nat) × Nat :=
  if q.isEmpty then (0, [], 0)
  else
    let x := drrSend (d + c) q
    (if x.2.1.isEmpty then 0 else x.1, x.2.1, x.2.2)

/-- A round of a request output with the registers as they stood, after which the packets that arrived during it, as
(input, beats, census), join their inputs and their census takes effect (R261). -/
def drrRound (A : Arb) (now : Nat) (arrivals : List (Nat × Nat × Nat)) : Arb :=
  let r := (List.range 8).map (fun i => drrInput (A.census.getD i 0) (A.deficit.getD i 0) (A.queue.getD i []))
  let A := { A with deficit := r.map (·.1), queue := r.map (·.2.1), sent := r.map (·.2.2) }
  let A := arrivals.foldl (fun (A : Arb) x =>
    { A with queue := lmod A.queue x.1 (fun q => q ++ [(x.2.1, x.2.2)])
             census := A.census.set x.1 (censusClamp x.2.2)
             mark := A.mark.set x.1 now }) A
  { A with out := censusOut A.census }

/-- A round of a response output: the next input in turn that has a packet sends one, after which the packets that arrived
join their inputs (R261). -/
def rspRound (A : RspArb) (arrivals : List Nat) : RspArb :=
  let A := match ((List.range 8).map (fun k => (A.turn + k) % 8)).find? (fun i => A.waiting.getD i 0 > 0) with
    | some i => { A with waiting := lmod A.waiting i (· - 1), turn := (i + 1) % 8, sent := some i }
    | none => { A with sent := none }
  arrivals.foldl (fun (A : RspArb) i => { A with waiting := lmod A.waiting i (· + 1) }) A

/-- ARBITER_ROUND: an output of a router of a compute die runs a round; `arrivals` are the packets that reach the router
during it, those of other outputs not counted (R253, R261). -/
def execArbiterRound (a : RouterOut) (arrivals : List PktRef) (s : State) : Host.Outcome State Fault Refusal :=
  .next (
    let k := arbKey a.die.val a.router.val a.out.val
    let here := (arrivals.filterMap (packetOf s)).filterMap (fun x =>
      (arrivalAt s a.response x a.die.val a.router.val a.out.val).map (fun i => (i.1, x.beats, i.2)))
    if a.response then
      { s with link := { s.link with rspArbs := mset s.link.rspArbs k (rspRound (mget s.link.rspArbs RspArb.reset k) (here.map (·.1))) } }
    else { s with link := { s.link with arbs := mset s.link.arbs k (drrRound (mget s.link.arbs Arb.reset k) s.now here) } })

/-- CENSUS_EXPIRY: the register of an input that has had no packet for 256 FCLK cycles returns to 0 (R261): at least
one AON tick since its last packet, and none waits on it. -/
def execCensusExpiry (a : ArbId) (i : Fin 10) (s : State) : Host.Outcome State Fault Refusal :=
  .next (
    match a with
    | .router d r out =>
      let k := arbKey d.val r.val out.val
      let A := mget s.link.arbs Arb.reset k
      if s.now ≤ A.mark.getD i.val 0 ∨ !(A.queue.getD i.val []).isEmpty then s
      else
        let c := A.census.set i.val 0
        { s with link := { s.link with arbs := mset s.link.arbs k { A with census := c, out := censusOut c } } }
    | .port p =>
      let P := getP s p
      if s.now ≤ P.cmark.getD i.val 0 ∨ P.reqQ.any (fun x => x.1 == i.val) then s
      else setP s p { P with census := P.census.set i.val 0 })

end Machine
end Sys2Proof
end

