-- ==== Sys2Proof/Machine/DebugAccess.lean ====
section
/-!
DEFINITION. Reads and writes of a debug session (R390).
-/

namespace Sys2Proof
namespace Machine

/-- The session's mask covers every constellation (R390). -/
def allScope (e : Session) : Bool := e.mask == 2 ^ 64 - 1

/-- Module memory in scope: a region that a constellation in scope owns, or the local store of a tile in scope (R390). -/
def memInScope (s : State) (e : Session) (a : Nat) : Bool :=
  match placeOf s a with
  | .mem _ _ => (match s.chart with
    | some ch => ch.consts.any (fun k => k.regions.testBit (a / 0x40000000) && e.mask.testBit k.id)
    | none => false)
  | .window g _ => inScope s e.mask g
  | _ => false

/-- What a session may read: CSRs of tiles in scope, die registers under a mask of all ones, module memory in scope, and at
INVASIVE the registers of a halted context (R390). -/
def dbgReads (s : State) (e : Session) (p : DbgPlace) : Bool :=
  let halted := fun (t : TileId) (c : CtxId) => e.level == 2 && inScope s e.mask t && (getC s t c).dbg == 1
  match p with
  | .csr t _ _ => inScope s e.mask t
  | .gpr t c _ => halted t c
  | .pc t c => halted t c
  | .vbyte t c r _ => halted t c && decide (r.val < (getT s t).vregs)
  | .die i off => allScope e && i != 30 && dieAnswers s i off.toNat
  | .mem a n => n != 0 && memInScope s e a.toNat && memInScope s e (a.toNat + n.val - 1)

/-- The bytes a session reads at a place; the bytes of poisoned sectors are unpredictable. None while a memory read waits
or where there is nothing. -/
def dbgRead (s : State) (p : DbgPlace) : Option (List Byte × State) :=
  match p with
  | .csr t c n => (csrRead s t c (headWait (getT s t)) n.toNat).map (fun v => (toLE 8 v.toNat, s))
  | .gpr t c r => some (toLE 8 (xget (getC s t c) r).toNat, s)
  | .pc t c => some (toLE 8 (getC s t c).pc, s)
  | .vbyte t c r b => some ([stRead (getT s t).vr ((64 * c.val + r.val) * 1024 + b.val)], s)
  | .die i off => some (toLE 8 (ctrlReg s i (off.toNat / 8 * 8)).toNat, s)
  | .mem a n =>
    match cohRead s a.toNat n.val 0 false [] with
    | none => none
    | some r =>
      if r.st ≠ 0 then none
      else if r.pois.any id then
        let g := r.s.draws
        some ((r.bytes.zip r.pois).zipIdx.map (fun x => if x.1.2 then Config.unwritten g x.2 else x.1.1), { r.s with draws := g + 1 })
      else some (r.bytes, r.s)

/-- A write of an INVASIVE session at a place: a CSR under its access types and at once, a register of a halted context, a
die register, module memory (R390). -/
def dbgWrite (s : State) (p : DbgPlace) (v : List Byte) : State :=
  let w := toW (ofLE v)
  match p with
  | .csr t c n =>
    match csrRead s t c (headWait (getT s t)) n.toNat with
    | none => s
    | some old => modC s t c (fun C => applyModes (csrWrite s C .csrw n.toNat old w) (fun _ => true))
  | .gpr t c r => modC s t c (fun C => xset C r w)
  | .pc t c =>
    let q := w.toNat % 2 ^ 48 / 4 * 4
    modC s t c (fun C => { (if inGroup C then setThreads C C.tgpath (fun _ => q) else C) with pc := q })
  | .vbyte t c r b => modT s t (fun T => { T with vr := stWrite T.vr ((64 * c.val + r.val) * 1024 + b.val) (v.getD 0 0#8) })
  | .die i off => ctrlWrite s .debug i (off.toNat / 8 * 8) true w []
  | .mem a n => match cohWriteB s a.toNat ((v ++ List.replicate n.val 0#8).take n.val) 0 [] with | some r => r.2 | none => s

/-- DEBUG_ACCESS: the open session reads a place in its scope, answered over its transport, or at INVASIVE writes it; the
Lodestar refuses anything else, without effect (R390). -/
def execDebugAccess (p : DbgPlace) (w : Option (List Byte)) (s : State) : Host.Outcome State Fault Refusal :=
  .next (
    match s.sec.session with
    | none => s
    | some e =>
      if !lsManaged s ∨ !(e.level == 1 || e.level == 2) ∨ !dbgReads s e p then s
      else
        match w with
        | none =>
          match dbgRead s p with
          | none => s
          | some (b, s') => emit s' (.sideband e.transport b)
        | some v => if e.level = 2 then dbgWrite s p v else s)

end Machine
end Sys2Proof
end

