-- ==== Sys2Proof/Machine/FetchFault.lean ====
section
/-!
DEFINITION. Instruction words that no instruction has (R101) and fetches that fail (R75, R39, R243).
-/

namespace Sys2Proof
namespace Machine

/-- ILLEGAL_WORD: the context meets a word that no instruction has and raises ILLEGAL with the word in TL_EINFO (R101,
R108, R119); a word that some instruction has is that instruction's own command. -/
def execIllegalWord (t : TileId) (c : CtxId) (w : BitVec 32) (s : State) : Host.Outcome State Fault Refusal :=
  .next (
    match decodeWord t c w.toNat with
    | some _ => s
    | none => issue s t c [] (fun _ _ => .fault (plainFault 0x00 (w.setWidth 64))))

/-- The response of a fetch of context c at module address a whose check has passed: POISON or FENCED (R39, R243), as the
response to its request brought it or as the copies in the tile hold it, with the state after the read found errors of
the tile store (R218). -/
def fetchResponse (s : State) (t : Nat) (c : CtxId) (a : Nat) : Option Nat × State :=
  let T := getT s t
  match T.ctx[c].fetchBad.filter (fun x => x.1 == a || x.1 == a / 32 * 32) with
  | some (_, code) => (some code, s)
  | none =>
  match placeOf s a with
  | .window g o =>
    if fenced s (g / 64) then (some 0x11, s)
    else
      let r := lsRead s g o 4
      (if r.2.1 then some 0x10 else none, r.2.2)
  | p =>
    match (if T.det then none else cacheLook T.l1i 64 (a / 32)) with
    | some (_, bad) => (if bad then some 0x10 else none, s)
    | none =>
      match cacheLook T.tc (tcSets T) (a / 32) with
      | some (_, bad) => (if bad then some 0x10 else none, s)
      | none => (if placeFenced s p then some 0x11 else none, s)

/-- INSTRUCTION_FETCH_FAULT: the fetch at the context's PC fails its seg0 check, is an address error, or gets a fault
response; TL_EPC holds the instruction, which has not executed, and for a response so does TL_ESRC (R75, R106, R109,
R110, R243). A fetch that succeeds leaves the state unchanged (assumption 3). -/
def execInstructionFetchFault (t : TileId) (c : CtxId) (s : State) : Host.Outcome State Fault Refusal :=
  .next (
    let s1 := settle s t c
    if !canIssue s1 t c then s
    else
      let C := getC s1 t c
      match fetchFault s1 C with
      | some f => raiseFault s1 t c f
      | none =>
        let a := segAddr C 0 C.pc
        match fetchResponse s1 t c a with
        | (none, _) => s
        | (some code, s2) =>
          raiseEntry (modC s2 t c (fun C => { C with fetchBad := none })) t c
            { code := code, kind := 2, info := toW a, seg := 0, access := 0, half := false, epc := C.pc, esrc := C.pc
              target := none, vstart := wfld C.vstart 3 0, path := C.tgpath })

end Machine
end Sys2Proof
end

