-- ==== Sys2Proof/Machine/Lane.lean ====
section
/-!
DEFINITION. The lane engine's issue: operands, the checks made at issue, element groups, and the queue (R121 to R129,
R141 to R148, R152). An instruction enters the queue here; LANE_GROUP performs its groups and LANE_FINISH ends it.
-/

namespace Sys2Proof
namespace Machine

/-- How an instruction uses a vector register: register, writes it, element width in bits (0: any part of it), and the
bytes of the destination pair below this register. -/
structure VUse where
  reg : Nat
  wr : Bool
  width : Nat
  off : Nat
deriving DecidableEq, Repr

/-- Element width of LN_VCFG.SEW in bits. -/
def sewBits (sew : Nat) : Nat := 8 * 2 ^ (sew % 4)

/-- Read of register r at width w. -/
def vrd (r : VReg) (w : Nat) : VUse := { reg := r.val, wr := false, width := w, off := 0 }
/-- Write of register r at width w. -/
def vwr (r : VReg) (w : Nat) : VUse := { reg := r.val, wr := true, width := w, off := 0 }
/-- The second operand of an element operation. -/
def vsrcUse (b : VSrc) (w : Nat) : List VUse := match b with | .vv r => [vrd r w] | .vx _ => []
/-- The mask register. -/
def maskUse (m : Bool) : List VUse := if m then [{ reg := 0, wr := false, width := 1, off := 0 }] else []

/-- The vector registers an instruction uses at an element width (R126, R128). -/
def vUses (i : Instr) (w : Nat) : List VUse :=
  match i with
  | .vmvXS _ _ _ vs => [vrd vs 0]
  | .vmvSX _ _ vs _ => [vwr vs 0]
  | .vmvVX _ _ vs _ => [vwr vs w]
  | .vintOp _ _ op vd a b m => [vwr vd w, vrd a w] ++ vsrcUse b w ++ maskUse m ++ (if op = .macc then [vrd vd w] else [])
  | .vfpOp _ _ op vd a b m =>
    [vwr vd w, vrd a w] ++ vsrcUse b w ++ maskUse m ++ (if op = .macc ∨ op = .nmsac then [vrd vd w] else [])
  | .vcompare _ _ _ vd a b m => [vwr vd 1, vrd a w] ++ vsrcUse b w ++ maskUse m
  | .vmerge _ _ vd a b => [vwr vd w, vrd a w] ++ vsrcUse b w ++ maskUse true
  | .vfcvt _ _ _ vd a m => [vwr vd w, vrd a w] ++ maskUse m
  | .vfdivVfsqrt _ _ sq vd a b m => [vwr vd w, vrd a w] ++ (if sq then [] else [vrd b w]) ++ maskUse m
  | .vwidenMul _ _ _ vd a b m =>
    [vwr vd (2 * w), { reg := vd.val + 1, wr := true, width := 2 * w, off := 1024 }, vrd a w, vrd b w] ++ maskUse m
  | .vdot _ _ _ vd a b m => [vwr vd w, vrd a w, vrd b w, vrd vd w] ++ maskUse m
  | .vreduceInt _ _ _ vd a m => [vwr vd 0, vrd a 0] ++ maskUse m
  | .vreduceFp _ _ _ vd a m => [vwr vd 0, vrd a 0] ++ maskUse m
  | .vrgather _ _ vd a b m => [vwr vd 0, vrd a 0, vrd b 0] ++ maskUse m
  | .vslideup _ _ vd a _ m => [vwr vd 0, vrd a 0] ++ maskUse m
  | .vslidedown _ _ vd a _ m => [vwr vd 0, vrd a 0] ++ maskUse m
  | .vcompress _ _ vd a => [vwr vd 0, vrd a 0, { reg := 0, wr := false, width := 0, off := 0 }]
  | .vid _ _ vd m => [vwr vd w] ++ maskUse m
  | .vmacm _ _ _ vd _ _ m => [vwr vd w, vrd vd w] ++ maskUse m
  | .vload _ _ vd _ _ m mode => [vwr vd w] ++ (match mode with | .indexed v => [vrd v w] | _ => []) ++ maskUse m
  | .vstore _ _ vs _ _ m mode => [vrd vs w] ++ (match mode with | .indexed v => [vrd v w] | _ => []) ++ maskUse m
  | .vamo _ _ _ vd a b _ m => [vwr vd 0, vrd a 0, vrd b 0] ++ maskUse m
  | _ => []

/-- Masked by v0 (R125). -/
def laneMasked (i : Instr) : Bool :=
  match i with
  | .vintOp _ _ _ _ _ _ m => m | .vfpOp _ _ _ _ _ _ m => m | .vcompare _ _ _ _ _ _ m => m | .vmerge .. => true
  | .vfcvt _ _ _ _ _ m => m | .vfdivVfsqrt _ _ _ _ _ _ m => m | .vwidenMul _ _ _ _ _ _ m => m
  | .vdot _ _ _ _ _ _ m => m | .vreduceInt _ _ _ _ _ m => m | .vreduceFp _ _ _ _ _ m => m
  | .vrgather _ _ _ _ _ m => m | .vslideup _ _ _ _ _ m => m | .vslidedown _ _ _ _ _ m => m | .vid _ _ _ m => m
  | .vmacm _ _ _ _ _ _ m => m | .vload _ _ _ _ _ m _ => m | .vstore _ _ _ _ _ m _ => m | .vamo _ _ _ _ _ _ _ m => m
  | _ => false

/-- A floating-point instruction, bound by LN_VCSR.RND and by its SEW (R130). -/
def laneFp (i : Instr) : Bool :=
  match i with
  | .vfpOp .. => true
  | .vcompare _ _ op _ _ _ _ => op == .feq || op == .flt || op == .fle
  | .vfcvt .. => true
  | .vfdivVfsqrt .. => true
  | .vwidenMul _ _ op _ _ _ _ => op == .fmul || op == .fmacc
  | .vdot _ _ op _ _ _ _ => !(op == .dot4 || op == .dot4u)
  | .vreduceFp .. => true
  | .vmacm _ _ fp _ _ _ _ => fp
  | _ => false

/-- Element groups in plain mode: ⌈VL × W ÷ 1,024⌉ (R126); `vmv.x.s` reads element 0, which is tail while VL is 0 (R125),
and `vmv.s.x` writes it whatever VL (05 Table 6). -/
def laneGroups (i : Instr) (sew vl : Nat) : Nat :=
  match i with
  | .vmvXS .. => if vl = 0 then 0 else 1
  | .vmvSX .. => 1
  | .vwidenMul .. => ceilDiv (vl * 2 * sewBits sew) 1024
  | _ => ceilDiv (vl * sewBits sew) 1024

/-- Elements per group (R126, R152). -/
def groupElems (i : Instr) (sew : Nat) (tg : Bool) : Nat :=
  if tg then 16
  else match i with
    | .vwidenMul .. => 1024 / (2 * sewBits sew)
    | _ => 1024 / sewBits sew

/-- A reserved value of LN_VCSR.RND (R130). -/
def badRnd (C : Ctx) : Bool :=
  let r := wfld C.vcsr 2 0
  r == 2 || r == 3 || r == 5

/-- The configuration an instruction cannot run under (R125, R130, R132, R133, R135, R141, R152, R162). -/
def vConfigBad (T : Tile) (C : Ctx) (i : Instr) : Bool :=
  let sew := wfld C.vcfg 1 0
  let tg := inGroup C
  let g := wfld C.vstart 3 0
  let dst := (vUses i 8).filter (fun u => u.wr)
  let wide := match i with | .vwidenMul .. => true | _ => false
  (laneMasked i && dst.any (fun u => u.reg == 0))
    || (tg && decide (sew < 2))
    || (!(resumable i) && g != 0)
    || (resumable i && decide (g > (if wide then 15 else 7)))
    || (laneFp i && badRnd C)
    || (laneFp i && sew == 0 && (match i with | .vdot .. => false | _ => true))
    || (match i with
        | .vwidenMul _ _ op vd a b _ =>
          tg || (if op = .fmul ∨ op = .fmacc then !(sew == 1 || sew == 2) else decide (sew > 2))
            || vd.val % 2 == 1 || decide (vd.val + 1 ≥ T.vregs) || a.val / 2 == vd.val / 2 || b.val / 2 == vd.val / 2
        | .vdot .. => sew != 2
        | .vrgather _ _ vd a b _ => vd == a || vd == b
        | .vslideup _ _ vd a _ _ => vd == a
        | .vslidedown _ _ vd a _ _ => vd == a
        | .vcompress _ _ vd a => vd == a
        | .vamo .. => decide (sew < 2)
        | _ => false)

/-- A register number at or above N (R122). -/
def vRegBad (T : Tile) (i : Instr) : Bool :=
  (vUses i 8).any (fun u => u.off == 0 && decide (u.reg ≥ T.vregs))

/-- A load or atomic outside seg3 in the queue keeps later users of its destination at IS (R139). -/
def laneHeld (T : Tile) (c : CtxId) (i : Instr) : Bool :=
  T.lane.any (fun e => e.ctx == c.val &&
    (match e.ins with
     | .vload _ _ vd rs1 seg _ _ => useSeg seg rs1 != 3 && (vUses i 8).any (fun u => u.reg == vd.val)
     | _ => false))

/-- Take an instruction into the queue (R127): its configuration, path and scalar operands are captured, LN_VSTART is
taken up and reads 0 from here on (R141; assumption 27), and the PC moves on. Its completion counts toward shadows when
the next instruction issues. -/
def laneEnqueue (s : State) (t : Nat) (c : CtxId) (C : Ctx) (i : Instr) (s1 s2 : Word) : State :=
  let T := getT s t
  let sew := wfld C.vcfg 1 0
  let tg := inGroup C
  let vl := if tg then 128 else wfld C.vcfg 26 16
  let seq := T.seq + 1
  let e : LaneEnt :=
    { seq := seq, ctx := c.val, ins := i, pc := C.pc, sew := sew, alt := C.vcfg.toNat.testBit 4
      mz := C.vcfg.toNat.testBit 5, vl := vl, rnd := wfld C.vcsr 2 0, tg := tg, path := C.tgpath, s1 := s1, s2 := s2
      first := wfld C.vstart 3 0, next := wfld C.vstart 3 0
      groups := if tg then 8 else laneGroups i sew vl
      pieces := [], lp0 := C.lpcount[0], lp1 := C.lpcount[1], tpc0 := C.tpc, yielded0 := C.yielded, spin0 := C.tgspin, stopped := false, fault := none }
  let T := { T with lane := T.lane ++ [e], seq := seq }
  setT s t (tileSetC T c { C with vstart := 0 })

/-- Issue a lane-engine instruction (R127, R129, R141, R144): V_REG, then V_CONFIG, then ALIGN of a `vmacm` pointer. A place
of the 16-entry queue is held until the instruction finishes, and not only until it starts; R127 does not say when it is
freed (DESIGN CHOICE, assumption 117). A memory instruction waits behind a fence (R171). -/
def laneIssue (t : TileId) (c : CtxId) (i : Instr) (regs : List Reg) (s1 s2 : Ctx → Word)
    (pre : Ctx → Option FaultInfo) (s : State) : State :=
  issueWith s t c regs
    ((if laneMem i then afterFence t c else id) fun s C =>
      let T := getT s t
      if T.lane.length ≥ 16 ∨ (T.lane.filter (fun e => e.ctx == c.val)).length ≥ 8 ∨ laneHeld T c i = true then .wait s
      else
        orFault [if vRegBad T i then some (plainFault 0x19 (wordInfo i)) else none,
                 if vConfigBad T C i then some (plainFault 0x18 (wordInfo i)) else none, pre C]
          (.ok (laneEnqueue s t c C i (s1 C) (s2 C)) none))
    (fun s _ => modC s t c (fun C => { advance C none with
      lastLane := (getT s t).lane.getLast?.map (fun e => e.seq), fenceOn := false, dbg := if C.dbg = 2 then 1 else C.dbg }))
    (fun s f => raiseLane s t c f)

/-- The scalar registers of a second operand. -/
def vsrcRegs (b : VSrc) : List Reg := match b with | .vv _ => [] | .vx r => [r]
/-- The scalar value of a second operand. -/
def vsrcVal (b : VSrc) (C : Ctx) : Word := match b with | .vv _ => 0 | .vx r => xget C r

/-- Issue an instruction without scalar operands. -/
def laneVec (t : TileId) (c : CtxId) (i : Instr) (s : State) : State :=
  laneIssue t c i [] (fun _ => 0) (fun _ => 0) (fun _ => none) s

/-- VSHAPE: executes at issue (R124). -/
def execVshape (t : TileId) (c : CtxId) (rd rs1 : Reg) (sew : Fin 4) (alt mz : Bool) (s : State) :
    Host.Outcome State Fault Refusal :=
  .next (issueWith s t c [rd, rs1]
    (fun s C =>
      let i : Instr := .vshape t c rd rs1 sew alt mz
      if alt ∧ sew ≠ 1 then .fault (plainFault 0x00 (wordInfo i))
      else if wfld C.vstart 3 0 ≠ 0 then .fault (plainFault 0x18 (wordInfo i))
      else
        let a := (xget C rs1).toNat
        let vl := min a (8192 / sewBits sew.val)
        let cfg := toW (vl * 2 ^ 16 + b2n mz * 32 + b2n alt * 16 + sew.val)
        .ok (setC s t c (xset { C with vcfg := cfg, vstart := 0 } rd (toW (a - vl)))) none)
    (fun s target => finish s t c target)
    (fun s f => raiseLane s t c f))

/-- VMV_X_S (05 Table 6). -/
def execVmvXS (t : TileId) (c : CtxId) (rd : Reg) (vs : VReg) (s : State) : Host.Outcome State Fault Refusal :=
  .next (laneIssue t c (.vmvXS t c rd vs) [rd] (fun _ => 0) (fun _ => 0) (fun _ => none) s)

/-- VMV_S_X (05 Table 6). -/
def execVmvSX (t : TileId) (c : CtxId) (vs : VReg) (rs1 : Reg) (s : State) : Host.Outcome State Fault Refusal :=
  .next (laneIssue t c (.vmvSX t c vs rs1) [rs1] (fun C => xget C rs1) (fun _ => 0) (fun _ => none) s)

/-- VMV_V_X (05 Table 6). -/
def execVmvVX (t : TileId) (c : CtxId) (vs : VReg) (rs1 : Reg) (s : State) : Host.Outcome State Fault Refusal :=
  .next (laneIssue t c (.vmvVX t c vs rs1) [rs1] (fun C => xget C rs1) (fun _ => 0) (fun _ => none) s)

/-- VINT_OP (R131). -/
def execVintOp (t : TileId) (c : CtxId) (op : VIntOp) (vd vs1 : VReg) (b : VSrc) (m : Bool) (s : State) :
    Host.Outcome State Fault Refusal :=
  .next (laneIssue t c (.vintOp t c op vd vs1 b m) (vsrcRegs b) (vsrcVal b) (fun _ => 0) (fun _ => none) s)

/-- VFP_OP (R130, R131). -/
def execVfpOp (t : TileId) (c : CtxId) (op : VFpOp) (vd vs1 : VReg) (b : VSrc) (m : Bool) (s : State) :
    Host.Outcome State Fault Refusal :=
  .next (laneIssue t c (.vfpOp t c op vd vs1 b m) (vsrcRegs b) (vsrcVal b) (fun _ => 0) (fun _ => none) s)

/-- VCOMPARE (R131). -/
def execVcompare (t : TileId) (c : CtxId) (op : VCmpOp) (vd vs1 : VReg) (b : VSrc) (m : Bool) (s : State) :
    Host.Outcome State Fault Refusal :=
  .next (laneIssue t c (.vcompare t c op vd vs1 b m) (vsrcRegs b) (vsrcVal b) (fun _ => 0) (fun _ => none) s)

/-- VMERGE (R131). -/
def execVmerge (t : TileId) (c : CtxId) (vd vs1 : VReg) (b : VSrc) (s : State) : Host.Outcome State Fault Refusal :=
  .next (laneIssue t c (.vmerge t c vd vs1 b) (vsrcRegs b) (vsrcVal b) (fun _ => 0) (fun _ => none) s)

/-- VFCVT (R131). -/
def execVfcvt (t : TileId) (c : CtxId) (toInt : Bool) (vd vs1 : VReg) (m : Bool) (s : State) :
    Host.Outcome State Fault Refusal :=
  .next (laneVec t c (.vfcvt t c toInt vd vs1 m) s)

/-- VFDIV_VFSQRT (05 Table 6). -/
def execVfdivVfsqrt (t : TileId) (c : CtxId) (sqrt : Bool) (vd vs1 vs2 : VReg) (m : Bool) (s : State) :
    Host.Outcome State Fault Refusal :=
  .next (laneVec t c (.vfdivVfsqrt t c sqrt vd vs1 vs2 m) s)

/-- VWIDEN_MUL (R132). -/
def execVwidenMul (t : TileId) (c : CtxId) (op : VWidenOp) (vd vs1 vs2 : VReg) (m : Bool) (s : State) :
    Host.Outcome State Fault Refusal :=
  .next (laneVec t c (.vwidenMul t c op vd vs1 vs2 m) s)

/-- VDOT (R133). -/
def execVdot (t : TileId) (c : CtxId) (op : VDotOp) (vd vs1 vs2 : VReg) (m : Bool) (s : State) :
    Host.Outcome State Fault Refusal :=
  .next (laneVec t c (.vdot t c op vd vs1 vs2 m) s)

/-- VREDUCE_INT (R134). -/
def execVreduceInt (t : TileId) (c : CtxId) (op : VRedIOp) (vd vs1 : VReg) (m : Bool) (s : State) :
    Host.Outcome State Fault Refusal :=
  .next (laneVec t c (.vreduceInt t c op vd vs1 m) s)

/-- VREDUCE_FP (R134). -/
def execVreduceFp (t : TileId) (c : CtxId) (op : VRedFOp) (vd vs1 : VReg) (m : Bool) (s : State) :
    Host.Outcome State Fault Refusal :=
  .next (laneVec t c (.vreduceFp t c op vd vs1 m) s)

/-- VRGATHER (R135). -/
def execVrgather (t : TileId) (c : CtxId) (vd vs1 vs2 : VReg) (m : Bool) (s : State) : Host.Outcome State Fault Refusal :=
  .next (laneVec t c (.vrgather t c vd vs1 vs2 m) s)

/-- VSLIDEUP (R135). -/
def execVslideup (t : TileId) (c : CtxId) (vd vs1 : VReg) (rs2 : Reg) (m : Bool) (s : State) :
    Host.Outcome State Fault Refusal :=
  .next (laneIssue t c (.vslideup t c vd vs1 rs2 m) [rs2] (fun C => xget C rs2) (fun _ => 0) (fun _ => none) s)

/-- VSLIDEDOWN (R135). -/
def execVslidedown (t : TileId) (c : CtxId) (vd vs1 : VReg) (rs2 : Reg) (m : Bool) (s : State) :
    Host.Outcome State Fault Refusal :=
  .next (laneIssue t c (.vslidedown t c vd vs1 rs2 m) [rs2] (fun C => xget C rs2) (fun _ => 0) (fun _ => none) s)

/-- VCOMPRESS (R135). -/
def execVcompress (t : TileId) (c : CtxId) (vd vs1 : VReg) (s : State) : Host.Outcome State Fault Refusal :=
  .next (laneVec t c (.vcompress t c vd vs1) s)

/-- VID (R135). -/
def execVid (t : TileId) (c : CtxId) (vd : VReg) (m : Bool) (s : State) : Host.Outcome State Fault Refusal :=
  .next (laneVec t c (.vid t c vd m) s)

/-- VMACM: both pointers a multiple of 128, else ALIGN at issue (R136). -/
def execVmacm (t : TileId) (c : CtxId) (fp : Bool) (vd : VReg) (rs1 rs2 : Reg) (m : Bool) (s : State) :
    Host.Outcome State Fault Refusal :=
  .next (laneIssue t c (.vmacm t c fp vd rs1 rs2 m) [rs1, rs2] (fun C => xget C rs1) (fun C => xget C rs2)
    (fun C =>
      match alignCheck 3 (xget C rs1).toNat 128 1 with
      | some f => some f
      | none => alignCheck 3 (xget C rs2).toNat 128 1) s)

/-- The scalar register of an access mode. -/
def modeRegs (mode : VMode) : List Reg := match mode with | .strided r => [r] | _ => []
/-- The stride of an access mode. -/
def modeVal (mode : VMode) (C : Ctx) : Word := match mode with | .strided r => xget C r | _ => 0

/-- VLOAD (R137). -/
def execVload (t : TileId) (c : CtxId) (vd : VReg) (rs1 : Reg) (seg : Option SegId) (m : Bool) (mode : VMode)
    (s : State) : Host.Outcome State Fault Refusal :=
  .next (laneIssue t c (.vload t c vd rs1 seg m mode) (rs1 :: modeRegs mode) (fun C => xget C rs1) (modeVal mode)
    (fun _ => none) s)

/-- VSTORE (R137). -/
def execVstore (t : TileId) (c : CtxId) (vs : VReg) (rs1 : Reg) (seg : Option SegId) (m : Bool) (mode : VMode)
    (s : State) : Host.Outcome State Fault Refusal :=
  .next (laneIssue t c (.vstore t c vs rs1 seg m mode) (rs1 :: modeRegs mode) (fun C => xget C rs1) (modeVal mode)
    (fun _ => none) s)

/-- VAMO (R162). -/
def execVamo (t : TileId) (c : CtxId) (op : VAmoOp) (vd vs1 vs2 : VReg) (seg : SegId) (m : Bool) (s : State) :
    Host.Outcome State Fault Refusal :=
  .next (laneVec t c (.vamo t c op vd vs1 vs2 seg m) s)

end Machine
end Sys2Proof
end

