-- ==== Sys2Proof/Machine/LaneExec.lean ====
section
/-!
DEFINITION. The lane engine at work: the element operations (R131 to R136), vector memory access (R137 to R140, R162,
R163), the start and chaining rules (R127, R128), and LANE_GROUP, VLOAD_RESPONSE and LANE_FINISH.
-/

namespace Sys2Proof
namespace Machine

/-! Elements -/

/-- Element width in bytes of an entry. -/
def entBytes (e : LaneEnt) : Nat := 2 ^ (e.sew % 4)
/-- Element width in bits of an entry. -/
def entBits (e : LaneEnt) : Nat := sewBits e.sew
/-- Elements of a register (R123, R152). -/
def entVlmax (e : LaneEnt) : Nat := if e.tg then 128 else 1024 / entBytes e
/-- The floating format of an entry (R124, R130). -/
def entFmt (e : LaneEnt) : FFmt :=
  match e.sew with | 1 => if e.alt then bf16 else fp16 | 2 => fp32 | _ => fp64

/-- Address of element i of register r at a width in bytes; in group mode element i is thread i's register (R151). -/
def elemAddr (e : LaneEnt) (r w i : Nat) : Nat := vrAddr e.ctx r + (if e.tg then 8 else w) * i

/-- Element i of register r. -/
def vGet (T : Tile) (e : LaneEnt) (r : VReg) (i : Nat) : Nat := stReadLE T.vr (elemAddr e r.val (entBytes e) i) (entBytes e)

/-- Bit i of register r (R131). -/
def vBit (T : Tile) (e : LaneEnt) (r : VReg) (i : Nat) : Bool :=
  (stRead T.vr (vrAddr e.ctx r.val + i / 8)).toNat.testBit (i % 8)

/-- Write element i of a register: in group mode at SEW 2 an integer result is sign-extended and an FP32 result is
zero-extended to the thread register (R152). What a load puts above its 32 bits Table 2 does not give: the model
sign-extends it (DESIGN CHOICE, assumption 126). -/
def vPut (m : Store) (e : LaneEnt) (r w i v : Nat) (fp : Bool) : Store :=
  if e.tg then stWriteLE m (elemAddr e r w i) 8 (if w = 4 ∧ !fp then (sextW 32 v).toNat else v % 2 ^ (8 * w))
  else stWriteLE m (elemAddr e r w i) w v

/-- Write bit i of a register. -/
def vPutBit (m : Store) (e : LaneEnt) (r : VReg) (i : Nat) (b : Bool) : Store :=
  let a := vrAddr e.ctx r.val + i / 8
  stWrite m a (BitVec.ofNat 8 (setFld (stRead m a).toNat (i % 8) (i % 8) (b2n b)))

/-- Element i takes part: below VL, or on the path the instruction captured (R125, R152, R159). -/
def inBody (e : LaneEnt) (i : Nat) : Bool := if e.tg then e.path.getLsbD i else decide (i < e.vl)

/-- Element i is active (R125, R152). -/
def vActive (T : Tile) (e : LaneEnt) (i : Nat) : Bool := inBody e i && (!laneMasked e.ins || vBit T e 0 i)

/-- The second operand of an element operation. -/
def vSrc (T : Tile) (e : LaneEnt) (b : VSrc) (i : Nat) : Nat :=
  match b with | .vv r => vGet T e r i | .vx _ => e.s1.toNat % 2 ^ entBits e

/-- Integer element operations at width w (R131). -/
def vIntOp (op : VIntOp) (w a b d : Nat) : Nat :=
  let sa := sInt w a
  let sb := sInt w b
  match op with
  | .add => (a + b) % 2 ^ w
  | .sub => (a + 2 ^ w - b % 2 ^ w) % 2 ^ w
  | .and => a &&& b
  | .or => a ||| b
  | .xor => a ^^^ b
  | .sll => (a <<< (b % w)) % 2 ^ w
  | .srl => (a % 2 ^ w) >>> (b % w)
  | .sra => wrapI w (sa / ((2 ^ (b % w) : Nat) : Int))
  | .min => if sa ≤ sb then a else b
  | .max => if sa ≤ sb then b else a
  | .minu => min a b
  | .maxu => max a b
  | .mul => a * b % 2 ^ w
  | .mulh => wrapI w (sa * sb / ((2 ^ w : Nat) : Int))
  | .mulhu => a * b / 2 ^ w
  | .macc => (d + a * b) % 2 ^ w

/-- Floating element operations: bits and flags (R131). -/
def vFpOp (op : VFpOp) (f : FFmt) (rnd a b d : Nat) : Nat × Nat :=
  match op with
  | .add => fAdd f rnd a b
  | .sub => fSub f rnd a b
  | .mul => fMul f f rnd a b
  | .macc => fFma f f rnd a b d
  | .nmsac => fFma f f rnd a b d true
  | .min => fMinMax f false a b
  | .max => fMinMax f true a b
  | .sgnj => (fSgnj f a b, 0)

/-- Compares: result and flags (R131). -/
def vCmpOp (op : VCmpOp) (f : FFmt) (w a b : Nat) : Bool × Nat :=
  match op with
  | .seq => (a == b, 0)
  | .sne => (a != b, 0)
  | .slt => (decide (sInt w a < sInt w b), 0)
  | .sltu => (decide (a < b), 0)
  | .sle => (decide (sInt w a ≤ sInt w b), 0)
  | .feq => fCmp f 0 a b
  | .flt => fCmp f 1 a b
  | .fle => fCmp f 2 a b

/-- The format to which a floating multiply widens (R132). -/
def wideFmt (e : LaneEnt) : FFmt := if e.sew = 1 then fp32 else fp64

/-- Widening multiplies at source width w (R132). -/
def vWidenOp (op : VWidenOp) (e : LaneEnt) (a b d : Nat) : Nat × Nat :=
  let w := entBits e
  match op with
  | .mul => (wrapI (2 * w) (sInt w a * sInt w b), 0)
  | .mulu => (a * b, 0)
  | .macc => (wrapI (2 * w) ((d : Int) + sInt w a * sInt w b), 0)
  | .fmul => fMul (entFmt e) (wideFmt e) e.rnd a b
  | .fmacc => fFma (entFmt e) (wideFmt e) e.rnd a b d

/-- Dot products of source elements packed in 32-bit elements (R133). -/
def vDotOp (op : VDotOp) (rnd a b d : Nat) : Nat × Nat :=
  let b8 := fun (x j : Nat) => x / 2 ^ (8 * j) % 256
  let f8 := fun (g1 g2 : FFmt) => fDot g1 g2 fp32 rnd d ((List.range 4).map (fun j => (b8 a j, b8 b j)))
  match op with
  | .ee => f8 fp8e4m3 fp8e4m3
  | .ef => f8 fp8e4m3 fp8e5m2
  | .fe => f8 fp8e5m2 fp8e4m3
  | .ff => f8 fp8e5m2 fp8e5m2
  | .dot4 => (wrapI 32 ((List.range 4).foldl (fun s j => s + sInt 8 (b8 a j) * sInt 8 (b8 b j)) (d : Int)), 0)
  | .dot4u => (((List.range 4).foldl (fun s j => s + b8 a j * b8 b j) d) % 2 ^ 32, 0)
  | .dot2 => fDot bf16 bf16 fp32 rnd d ((List.range 2).map (fun j => (a / 2 ^ (16 * j) % 65536, b / 2 ^ (16 * j) % 65536)))

/-- The destination of an element instruction. -/
def vDest (i : Instr) : VReg :=
  match i with
  | .vmvSX _ _ vs _ => vs | .vmvVX _ _ vs _ => vs | .vintOp _ _ _ vd _ _ _ => vd | .vfpOp _ _ _ vd _ _ _ => vd
  | .vcompare _ _ _ vd _ _ _ => vd | .vmerge _ _ vd _ _ => vd | .vfcvt _ _ _ vd _ _ => vd
  | .vfdivVfsqrt _ _ _ vd _ _ _ => vd | .vwidenMul _ _ _ vd _ _ _ => vd | .vdot _ _ _ vd _ _ _ => vd
  | .vreduceInt _ _ _ vd _ _ => vd | .vreduceFp _ _ _ vd _ _ => vd | .vrgather _ _ vd _ _ _ => vd
  | .vslideup _ _ vd _ _ _ => vd | .vslidedown _ _ vd _ _ _ => vd | .vcompress _ _ vd _ => vd | .vid _ _ vd _ => vd
  | .vmacm _ _ _ vd _ _ _ => vd | .vload _ _ vd _ _ _ _ => vd | .vamo _ _ _ vd _ _ _ _ => vd
  | _ => 0

/-- The result of element i of an element-by-element instruction: value, flags, and whether it is a floating result;
none where the instruction is of another kind. -/
def vElem (T : Tile) (e : LaneEnt) (i : Nat) : Option (Nat × Nat × Bool) :=
  let w := entBits e
  match e.ins with
  | .vmvVX .. => some (e.s1.toNat % 2 ^ w, 0, false)
  | .vintOp _ _ op vd a b _ => some (vIntOp op w (vGet T e a i) (vSrc T e b i) (vGet T e vd i), 0, false)
  | .vfpOp _ _ op vd a b _ =>
    let r := vFpOp op (entFmt e) e.rnd (vGet T e a i) (vSrc T e b i) (vGet T e vd i)
    some (r.1, r.2, true)
  | .vmerge _ _ _ a b => some (if vBit T e 0 i then vGet T e a i else vSrc T e b i, 0, false)
  | .vfcvt _ _ toInt _ a _ =>
    let r := if toInt then fToInt (entFmt e) e.rnd w (vGet T e a i) else fFromInt (entFmt e) e.rnd w (vGet T e a i)
    some (r.1, r.2, !toInt)
  | .vfdivVfsqrt _ _ sq _ a b _ =>
    let r := if sq then fSqrt (entFmt e) e.rnd (vGet T e a i) else fDiv (entFmt e) e.rnd (vGet T e a i) (vGet T e b i)
    some (r.1, r.2, true)
  | .vdot _ _ op vd a b _ =>
    let r := vDotOp op e.rnd (vGet T e a i) (vGet T e b i) (vGet T e vd i)
    some (r.1, r.2, !(op == .dot4 || op == .dot4u))
  | .vid .. => some (i % 2 ^ w, 0, false)
  | _ => none

/-- The element of the destination pair of a widening multiply: register and index (R132). -/
def pairElem (e : LaneEnt) (vd : VReg) (i : Nat) : Nat × Nat :=
  let per := 1024 / (2 * entBytes e)
  if i < per then (vd.val, i) else (vd.val + 1, i - per)

/-- Perform group k of an element-by-element instruction: register bytes and flags (R125, R126, R131). -/
def vGroup (T : Tile) (e : LaneEnt) (k : Nat) : Store × Nat :=
  let ge := groupElems e.ins e.sew e.tg
  let els := (List.range ge).map (fun j => k * ge + j)
  let vd := vDest e.ins
  let w := entBytes e
  els.foldl (fun (a : Store × Nat) i =>
    if !inBody e i then a
    else
      let act := vActive T e i || (match e.ins with | .vmerge .. => true | _ => false)
      match e.ins with
      | .vcompare _ _ op _ x b _ =>
        if act then
          let r := vCmpOp op (entFmt e) (entBits e) (vGet T e x i) (vSrc T e b i)
          (vPutBit a.1 e vd i r.1, a.2 ||| r.2)
        else if e.mz && !e.tg then (vPutBit a.1 e vd i false, a.2) else a
      | .vwidenMul _ _ op _ x y _ =>
        let p := pairElem e vd i
        if act then
          let r := vWidenOp op e (vGet T e x i) (vGet T e y i) (stReadLE T.vr (elemAddr e p.1 (2 * w) p.2) (2 * w))
          (stWriteLE a.1 (elemAddr e p.1 (2 * w) p.2) (2 * w) r.1, a.2 ||| r.2)
        else if e.mz then (stWriteLE a.1 (elemAddr e p.1 (2 * w) p.2) (2 * w) 0, a.2) else a
      | _ =>
        if act then
          match vElem T e i with
          | some (v, fl, fp) => (vPut a.1 e vd.val w i v fp, a.2 ||| fl)
          | none => a
        else if e.mz && !e.tg then (vPut a.1 e vd.val w i 0 false, a.2) else a) (T.vr, 0)

/-! Reductions and permutes: the whole effect, at the last group -/

/-- Elements of the body with a test. -/
def bodyElems (e : LaneEnt) (p : Nat → Bool) : List Nat := (List.range (entVlmax e)).filter (fun i => inBody e i && p i)

/-- Pairwise sums of a list (R134): n halvings. -/
def pairSum (f : FFmt) (rnd : Nat) : Nat → List Nat × Nat → List Nat × Nat
  | 0, a => a
  | n + 1, (l, fl) =>
    let rec go : List Nat → List Nat × Nat
      | x :: y :: r =>
        let q := fAdd f rnd x y
        let p := go r
        (q.1 :: p.1, q.2 ||| p.2)
      | l => (l, 0)
    let r := go l
    pairSum f rnd n (r.1, fl ||| r.2)

/-- Integer reductions (R134). -/
def vRedI (op : VRedIOp) (w a b : Nat) : Nat :=
  match op with
  | .sum => (a + b) % 2 ^ w
  | .max => if sInt w a ≤ sInt w b then b else a
  | .min => if sInt w a ≤ sInt w b then a else b
  | .maxu => max a b
  | .minu => min a b

/-- Floating reductions: the new vd[0] and flags (R134). -/
def vRedF (T : Tile) (e : LaneEnt) (op : VRedFOp) (a : VReg) (init : Nat) : Nat × Nat :=
  let f := entFmt e
  let els := bodyElems e (vActive T e)
  let fold := fun (g : Nat → Nat → Nat × Nat) =>
    els.foldl (fun (r : Nat × Nat) i => let q := g r.1 (vGet T e a i); (q.1, r.2 ||| q.2)) (init, 0)
  match op with
  | .sum =>
    let l := (List.range (entVlmax e)).map (fun i =>
      if inBody e i && vActive T e i then vGet T e a i else fPack f true 0 0)
    let r := pairSum f e.rnd (Nat.log2 (entVlmax e)) (l, 0)
    let q := fAdd f e.rnd init (r.1.getD 0 0)
    (q.1, r.2 ||| q.2)
  | .seq => fold (fAdd f e.rnd)
  | .max => fold (fMinMax f true)
  | .min => fold (fMinMax f false)

/-- A reduction or permute: register bytes and flags (R134, R135). In group mode `vcompress` writes vd[0] to vd[m - 1]
whichever threads those are, also threads that are not on the running path, which R135 names and R152 does not settle
(DESIGN CHOICE, assumption 121). -/
def vWhole (T : Tile) (e : LaneEnt) : Store × Nat :=
  let w := entBytes e
  let vd := vDest e.ins
  let k := e.s1.toNat
  let zeros := fun (m : Store) => if e.mz && !e.tg then
      (bodyElems e (fun i => !vActive T e i)).foldl (fun m i => vPut m e vd.val w i 0 false) m else m
  let each := fun (f : Nat → Option Nat) =>
    ((bodyElems e (vActive T e)).foldl (fun m i =>
      match f i with | some v => vPut m e vd.val w i v false | none => m) (zeros T.vr), 0)
  match e.ins with
  | .vreduceInt _ _ op _ a _ =>
    let v := (bodyElems e (vActive T e)).foldl (fun r i => vRedI op (entBits e) r (vGet T e a i)) (vGet T e vd 0)
    (if e.vl = 0 then T.vr else vPut T.vr e vd.val w 0 v false, 0)
  | .vreduceFp _ _ op _ a _ =>
    if e.vl = 0 then (T.vr, 0)
    else
      let r := vRedF T e op a (vGet T e vd 0)
      (vPut T.vr e vd.val w 0 r.1 true, r.2)
  | .vrgather _ _ _ a b _ =>
    each (fun i => some (let j := vGet T e b i; if j < entVlmax e then vGet T e a j else 0))
  | .vslideup _ _ _ a _ _ => each (fun i => if k ≤ i then some (vGet T e a (i - k)) else none)
  | .vslidedown _ _ _ a _ _ => each (fun i => some (if i + k < entVlmax e then vGet T e a (i + k) else 0))
  | .vcompress _ _ _ a =>
    ((bodyElems e (vBit T e 0)).zipIdx.foldl (fun m p => vPut m e vd.val w p.2 (vGet T e a p.1) false) T.vr, 0)
  | _ => (T.vr, 0)

/-! Start and chaining (R127, R128) -/

/-- The width at which an entry's registers advance. -/
def entUseBits (e : LaneEnt) : Nat := if e.tg then 64 else entBits e

/-- Bytes of a used register that n groups of an entry cover. -/
def coverBytes (e : LaneEnt) (u : VUse) (n : Nat) (up : Bool) : Nat :=
  let bits := n * groupElems e.ins e.sew e.tg * u.width
  min 1024 ((if up then ceilDiv bits 8 else bits / 8) - u.off)

/-- The next group of an entry may start as far as an earlier entry of its context is concerned (R128). -/
def chainOk (p e : LaneEnt) : Bool :=
  (vUses p.ins (entUseBits p)).all (fun u => (vUses e.ins (entUseBits e)).all (fun v =>
    if u.reg ≠ v.reg ∨ (u.wr = false ∧ v.wr = false) then true
    else if !chains p then false
    else if p.next ≥ p.groups then true
    else if u.width = 0 then false
    else
      let need := if v.width = 0 then 1024 else coverBytes e v (e.next + 1) true
      decide (coverBytes p u p.next false ≥ need)))

/-- Entry k may perform its next group (R127, R128). -/
def laneReady (T : Tile) (k : Nat) (e : LaneEnt) : Bool :=
  T.tstate == .t0 && !T.held && decide (e.next < e.groups) && (e.next != e.first || (T.lane.take k).all (fun p =>
      decide (p.next ≠ p.first) || decide (p.groups ≤ p.next)))
    && (T.lane.take k).all (fun p => p.ctx != e.ctx || chainOk p e)

/-! Vector memory (R137 to R140, R162, R163) -/

/-- Segment of a vector memory instruction. -/
def laneSeg (i : Instr) : SegId :=
  match i with
  | .vload _ _ _ rs1 seg _ _ => useSeg seg rs1
  | .vstore _ _ _ rs1 seg _ _ => useSeg seg rs1
  | .vamo _ _ _ _ _ _ seg _ => seg
  | _ => 3

/-- An index operand: SEW bits wide, or the whole thread register in group mode (R137, R152, R162). -/
def vIndex (T : Tile) (e : LaneEnt) (r : VReg) (i : Nat) : Nat :=
  stReadLE T.vr (elemAddr e r.val (entBytes e) i) (if e.tg then 8 else entBytes e)

/-- Segment offset of element i (R137, R162). -/
def vOffset (T : Tile) (e : LaneEnt) (i : Nat) : Nat :=
  let mode := fun (m : VMode) => match m with
    | .unit => (e.s1 + toW (i * entBytes e)).toNat
    | .strided _ => (e.s1 + toW i * e.s2).toNat
    | .indexed r => (e.s1 + toW (vIndex T e r i)).toNat
  match e.ins with
  | .vload _ _ _ _ _ _ m => mode m
  | .vstore _ _ _ _ _ _ m => mode m
  | .vamo _ _ _ _ a _ _ _ => vIndex T e a i
  | _ => 0

/-- Access kind of a vector memory instruction (R75). -/
def laneAccess (i : Instr) : Nat := match i with | .vstore .. => 2 | .vamo .. => 3 | _ => 1

/-- The lowest failing element of a list and its fault (R138). -/
def vCheck (s : State) (t : Nat) (C : Ctx) (e : LaneEnt) (els : List Nat) : Option (Nat × FaultInfo) :=
  let T := getT s t
  let seg := laneSeg e.ins
  let n := entBytes e
  els.findSome? (fun i =>
    let o := vOffset T e i
    match alignCheck seg o n (laneAccess e.ins) with
    | some f => some (i, f)
    | none => (checkAccess s t C seg (laneAccess e.ins) [(o, n)]).map (fun f => (i, f)))

/-- A memory instruction of the lane engine faults on element i: groups before k are performed, the entry ends there,
and the context enters with TL_EPC at the instruction and LN_VSTART.GROUP at k (R138, R163). An interrupt that was
waiting for the instruction stays pending. -/
def laneFault (s : State) (t : Nat) (e : LaneEnt) (k i : Nat) (f : FaultInfo) : State :=
  let c : CtxId := cix e.ctx
  let s := modT s t (fun T =>
    let C := T.ctx[c]
    tileSetC { T with lane := T.lane.map (fun x => if x.seq = e.seq then { x with groups := x.next, stopped := true } else x) } c
      { unadvance C e with
               pend := none
               vfault := toW (i * 2 ^ 16 + i / groupElems e.ins e.sew e.tg) })
  raiseEntry s t c { code := f.code, kind := 0, info := f.info, seg := f.seg, access := f.access, half := f.half
                     epc := e.pc, esrc := 0, target := none, vstart := k, path := e.path }

/-- The lower of two response faults of one instruction (R139). -/
def lowerFault (a b : Option RespFault) : Option RespFault :=
  match a, b with
  | none, y => y
  | x, none => x
  | some x, some y =>
    match x.elem, y.elem with
    | some p, some q => if q.1 < p.1 then some y else some x
    | _, _ => some x

/-- A response fault of element i (R139). -/
def elemFault (e : LaneEnt) (i code addr : Nat) : Option RespFault :=
  some { seq := e.seq, code := code, pc := e.pc, addr := addr, seg := (laneSeg e.ins).val, access := laneAccess e.ins
         half := false, elem := some (i, i / groupElems e.ins e.sew e.tg) }

/-- Replace an entry of the queue by its number. -/
def putEnt (T : Tile) (e : LaneEnt) : Tile := { T with lane := T.lane.map (fun x => if x.seq = e.seq then e else x) }

/-- The active elements of group k. -/
def groupActive (T : Tile) (e : LaneEnt) (k : Nat) : List Nat :=
  let ge := groupElems e.ins e.sew e.tg
  ((List.range ge).map (fun j => k * ge + j)).filter (fun i => decide (i < entVlmax e) && vActive T e i)

/-- Inactive elements of group k below VL are zeroed under MZ (R125). -/
def groupZero (T : Tile) (e : LaneEnt) (k : Nat) : Tile :=
  if e.mz && !e.tg then
    let ge := groupElems e.ins e.sew e.tg
    { T with vr := ((List.range ge).map (fun j => k * ge + j)).foldl (fun m i =>
        if inBody e i && !vActive T e i then vPut m e (vDest e.ins).val (entBytes e) i 0 false else m) T.vr }
  else T

/-- An element of a vector register takes a free value (R139, R163, R219). -/
def vFree (s : State) (t : Nat) (e : LaneEnt) (i : Nat) : State :=
  let d := draw s
  modT d.2 t (fun T => { T with vr := vPut T.vr e (vDest e.ins).val (entBytes e) i (d.1.toNat % 2 ^ entBits e) false })

/-- Group k of a seg3 load (R137, R219). -/
def vLoadLs (s : State) (t : Nat) (C : Ctx) (e : LaneEnt) (els : List Nat) : State × Option RespFault :=
  els.foldl (fun (a : State × Option RespFault) i =>
    let T := getT a.1 t
    let o := segAddr C 3 (vOffset T e i)
    let r := lsRead a.1 t o (entBytes e)
    if r.2.1 then (vFree r.2.2 t e i, lowerFault a.2 (elemFault e i 0x10 (windowAddr t (poisonWord T o (entBytes e)))))
    else (modT r.2.2 t (fun T => { T with vr := vPut T.vr e (vDest e.ins).val (entBytes e) i (ofLE r.1) false }), a.2))
    (s, e.fault)

/-- Serve a vector load's pieces from the tile cache, one request per missing sector (R140, R221). -/
def laneServe (T : Tile) (seq : Nat) (ps : List Piece) (hint : Nat) (w : Bool) (pre : Nat → Bool) : Tile × List Piece :=
  let r := ((ps.filter (fun p => cacheable p.addr)).flatMap pieceNeeds).eraseDups.foldl (fun (a : Tile × List Piece) sec =>
    match cacheLook a.1.tc (tcSets a.1) sec with
    | some (b, q) => ({ a.1 with tc := cacheTouch a.1.tc (tcSets a.1) sec }, a.2.map (fun p => pieceFill p (sec * 32) b q 0))
    | none => (prefetch (addRead a.1 (.lane seq) (sec * 32) 32 hint w false false true) (sec / 4) hint w false (pre (sec / 4)), a.2))
    (T, ps)
  ((ps.filter (fun p => !cacheable p.addr)).foldl (fun T p => addRead T (.lane seq) p.addr p.n hint w false false false) r.1, r.2)

/-- A store element's bytes. -/
def storeBytes (T : Tile) (e : LaneEnt) (vs : VReg) (i : Nat) : List Byte := toLE (entBytes e) (vGet T e vs i)

/-- The tile's merge buffer holds, from stores of the context issued before the instruction, a byte that the elements
write: those entries commit, and the instruction's writes wait for their drain, since the writes of one context to one
byte reach the point of coherence in program order (R227). -/
def vBehindStores (s : State) (T : Tile) (C : Ctx) (e : LaneEnt) (els : List Nat) : Option Tile :=
  let ps := els.map (fun i => (fabAddr s C (laneSeg e.ins) (vOffset T e i), entBytes e))
  let hit := fun (m : MBEnt) => m.who.any (fun w => w.ctx == e.ctx && decide (w.seq < e.seq)) && ps.any (fun p => mbHolds m p.1 p.2)
  if T.mb.any hit then some (mbCommit T hit) else none

/-- Group of a store outside seg3: bytes by sector, later elements over earlier ones, each sector one write on its way;
the L1D drops the sector and the tile cache takes the bytes (R137, R140, R223). -/
def vStoreOut (s : State) (T : Tile) (C : Ctx) (e : LaneEnt) (vs : VReg) (els : List Nat) : Tile :=
  let seg := laneSeg e.ins
  let parts := els.map (fun i => (i, fabAddr s C seg (vOffset T e i), storeBytes T e vs i))
  let secs := (parts.flatMap (fun p => sectorsOf p.2.1 p.2.2.length)).eraseDups
  secs.foldl (fun (T : Tile) sec =>
    let mine := parts.filter (fun p => (sectorsOf p.2.1 p.2.2.length).contains sec)
    let bs := mine.foldl (fun b p => mergeBytes b (sectorPart p.2.1 p.2.2 sec)) (List.replicate 32 none)
    let el := (mine.head?.map (fun p => p.1)).getD 0
    let whole : Bool := match e.ins with | .vstore _ _ _ _ _ _ mode => mode == .unit | _ => false
    let w : WriteReq := { seq := e.seq, ord := T.seq + 1, addr := sec * 32, bytes := bs, hint := hintOf C seg
                          who := [{ ctx := e.ctx, pc := e.pc, seg := seg.val, seq := e.seq
                                    addr := (mine.head?.map (fun p => p.2.1)).getD (sec * 32), half := false }]
                          lane := some (e.seq, el * 16 + el / groupElems e.ins e.sew e.tg)
                          txns := if whole then 0 else mine.length, status := none }
    let T := staleReads T (sec * 32) 32
    { T with seq := T.seq + 1, writes := T.writes ++ [w], l1d := cacheDrop T.l1d 64 sec
             tc := cacheUpd T.tc (tcSets T) sec bs }) T

/-- The vector store resets the spin count of its group where an element is active, the count an entry keeps included
(R161, R164). -/
def vStoreSpin (s : State) (t : Nat) (e : LaneEnt) (els : List Nat) : State :=
  if e.tg && !els.isEmpty then
    modC (modT s t (fun T => { T with lane := T.lane.map (fun x => if x.seq = e.seq then { x with spin0 := 0 } else x) }))
      t (cix e.ctx) (fun C => { C with tgspin := 0 })
  else s

/-- Performed up to the next group. -/
def laneNext (s : State) (t : Nat) (e : LaneEnt) : State :=
  modT s t (fun T => putEnt (actAdd T 2 1) { e with next := e.next + 1 })

/-- LANE_GROUP of a load or store (R138 to R140). -/
def memGroup (s : State) (t : Nat) (e : LaneEnt) : State :=
  let T := getT s t
  let c : CtxId := cix e.ctx
  let C := T.ctx[c]
  let seg := laneSeg e.ins
  let els := groupActive T e e.next
  match vCheck s t C e els with
  | some (i, f) => laneFault s t e e.next i f
  | none =>
    match e.ins with
    | .vstore _ _ vs _ _ _ _ =>
      if seg = 3 then
        let s := els.foldl (fun s i =>
          let o := vOffset T e i
          syncAfter (ctxStore s t c (segAddr C 3 o) (storeBytes T e vs i)) t C seg o (entBytes e)) s
        vStoreSpin (laneNext s t e) t e els
      else if let some T1 := vBehindStores s T C e els then setT s t T1
      else
        let T' := vStoreOut s T C e vs els
        if outstanding T' > 256 then s
        else
          let s := els.foldl (fun s i => syncAfter s t C seg (vOffset T e i) (entBytes e)) (setT s t T')
          vStoreSpin (laneNext s t e) t e els
    | _ =>
      if seg = 3 then
        let s := modT s t (fun T => groupZero T e e.next)
        let r := vLoadLs s t C e els
        laneNext r.1 t { e with fault := r.2 }
      else
        let ps := els.map (fun i => pieceNew (fabAddr s C seg (vOffset T e i)) (entBytes e) i)
        let r := laneServe (groupZero T e e.next) e.seq ps (hintOf C seg) (permOk C.sega[seg] 2) (prefetchOk s C seg)
        if outstanding r.1 > 256 then s
        else laneNext (setT s t r.1) t { e with pieces := e.pieces ++ r.2 }

/-- LANE_GROUP of a `vmacm` (R136): both 128-byte ranges are checked, then the group is performed. A range that fails its
check writes LN_VFAULT with the group's first element and the group, which R136 and R143 do not say (DESIGN CHOICE,
assumption 119). In group mode at SEW 2 a group reads its 16 elements of 4 bytes, 64 bytes at +64k, since the 128 bytes
at +128k of R136 do not fit them (DESIGN CHOICE, assumption 120). -/
def macmGroup (s : State) (t : Nat) (e : LaneEnt) (fp : Bool) (vd : VReg) : State :=
  let T := getT s t
  let C := T.ctx[cix e.ctx]
  let n := groupElems e.ins e.sew e.tg * entBytes e
  let ox := (e.s1 + toW (n * e.next)).toNat
  let oy := (e.s2 + toW (n * e.next)).toNat
  match checkAccess s t C 3 1 [(ox, n)], checkAccess s t C 3 1 [(oy, n)] with
  | some f, _ => laneFault s t e e.next (e.next * groupElems e.ins e.sew e.tg) f
  | none, some f => laneFault s t e e.next (e.next * groupElems e.ins e.sew e.tg) f
  | none, none =>
    let rx := lsRead s t (segAddr C 3 ox) n
    let ry := lsRead rx.2.2 t (segAddr C 3 oy) n
    let s := modT ry.2.2 t (fun T => groupZero T e e.next)
    let w := entBytes e
    let base := e.next * groupElems e.ins e.sew e.tg
    let r := (groupActive T e e.next).foldl (fun (a : State × Option RespFault × Nat) i =>
      let T := getT a.1 t
      let j := (i - base) * w
      let px := lsPoisoned T (segAddr C 3 ox + j) w
      let py := lsPoisoned T (segAddr C 3 oy + j) w
      if px || py then
        let o := segAddr C 3 (if px then ox else oy) + j
        (vFree a.1 t e i, lowerFault a.2.1 (elemFault e i 0x10 (windowAddr t (poisonWord T o w))), a.2.2)
      else
        let x := leAt rx.1 j w
        let y := leAt ry.1 j w
        let d := vGet T e vd i
        let q := if fp then fFma (entFmt e) (entFmt e) e.rnd x y d else ((d + x * y) % 2 ^ entBits e, 0)
        (modT a.1 t (fun T => { T with vr := vPut T.vr e vd.val w i q.1 fp }), a.2.1, a.2.2 ||| q.2)) (s, e.fault, 0)
    let s := modC r.1 t (cix e.ctx) (fun C => { C with vcsr := C.vcsr ||| toW (r.2.2 * 256) })
    laneNext s t { e with fault := r.2.1 }

/-- The scalar operation of a vector atomic other than `vamocas` (R162). -/
def vAmoOp (op : VAmoOp) : AmoOp :=
  match op with
  | .add => .add | .and => .and | .or => .or | .xor => .xor | .min => .min | .max => .max | .swap => .swap | .cas => .swap

/-- One vector atomic in local store: elements in ascending order; an element at a poisoned word changes nothing there
(R162, R219). -/
def vAmoLs (s : State) (t : Nat) (C : Ctx) (e : LaneEnt) (op : VAmoOp) (b : VReg) (els : List Nat) : State × Option RespFault :=
  let T0 := getT s t
  let n := entBytes e
  els.foldl (fun (a : State × Option RespFault) i =>
    let o := segAddr C 3 (vOffset T0 e i)
    let r := lsRead a.1 t o n
    if r.2.1 then
      (vFree r.2.2 t e i, lowerFault a.2 (elemFault e i 0x10 (windowAddr t (poisonWord (getT a.1 t) o n))))
    else
      let old := ofLE r.1
      let src := vGet T0 e b i
      let new := if op = .cas then (if old = vGet T0 e (vDest e.ins) i then some src else none)
        else some (amoNew (vAmoOp op) n old src)
      let s := modT r.2.2 t (fun T => { T with vr := vPut T.vr e (vDest e.ins).val n i old false })
      let s := match new with
        | some v => syncAfter (ctxStore s t (cix e.ctx) o (toLE n v)) t C 3 (vOffset T0 e i) n
        | none => s
      (s, a.2)) (s, e.fault)

/-- Send the memory atomics of a vector atomic outside seg3: one per distinct address, or one per element of a
`vamocas`, in ascending element order (R162, R163). -/
def vAmoSend (s : State) (T : Tile) (C : Ctx) (e : LaneEnt) (op : VAmoOp) (b : VReg) (els : List Nat) : Tile :=
  let n := entBytes e
  let seg := laneSeg e.ins
  let at_ := fun i => fabAddr s C seg (vOffset T e i)
  let T0 := T
  if op = .cas then
    els.foldl (fun T i =>
      let T := sendAtomic (mbCommit T (fun m => mbTouches m (at_ i / 32 * 32) 32)) (.lane e.seq) (at_ i) n (hintOf C seg)
        (.cas n (vGet T0 e (vDest e.ins) i) (vGet T0 e b i))
      { T with reads := T.reads.map (fun r => if r.seq = T.seq then { r with elem := some i } else r) }) T
  else
    ((els.map at_).eraseDups).foldl (fun T a =>
      let srcs := (els.filter (fun i => at_ i == a)).map (fun i => vGet T0 e b i)
      let one := match srcs with
        | [] => 0
        | x :: r => r.foldl (fun acc y => amoNew (vAmoOp op) n acc y) x
      sendAtomic (mbCommit T (fun m => mbTouches m (a / 32 * 32) 32)) (.lane e.seq) a n (hintOf C seg) (.amo (vAmoOp op) n one)) T

/-- LANE_GROUP of a vector atomic: every active element is checked, then all of it is performed or sent (R163). -/
def amoGroup (s : State) (t : Nat) (e : LaneEnt) (op : VAmoOp) (b : VReg) : State :=
  let T := getT s t
  let C := T.ctx[cix e.ctx]
  let els := bodyElems e (vActive T e)
  match vCheck s t C e els with
  | some (i, f) => laneFault s t e 0 i f
  | none =>
    let zero := fun (s : State) => modT s t (fun T => (List.range e.groups).foldl (fun T k => groupZero T e k) T)
    if laneSeg e.ins = 3 then
      let r := vAmoLs (zero s) t C e op b els
      modT r.1 t (fun T => putEnt T { e with next := e.groups, fault := r.2 })
    else
      let ps := els.map (fun i => pieceNew (fabAddr s C (laneSeg e.ins) (vOffset T e i)) (entBytes e) i)
      if let some T1 := vBehindStores s T C e els then setT s t T1
      else
      let T' := vAmoSend s T C e op b els
      if outstanding T' > 256 then s
      else
        let s := els.foldl (fun s i => syncAfter s t C (laneSeg e.ins) (vOffset T e i) (entBytes e)) (setT s t T')
        modT (zero s) t (fun T => putEnt T { e with next := e.groups, pieces := ps })

/-- LANE_GROUP: the k-th instruction of the tile's queue performs its next element group (R126 to R128). `vmv.s.x` leaves
thread 0 as it is where thread 0 is not on the captured path (R152); `vmv.x.s` reads thread 0's register on any path
(assumption 118). -/
def execLaneGroup (t : TileId) (k : Nat) (s : State) : Host.Outcome State Fault Refusal :=
  .next (
    let T := getT s t
    match T.lane[k]? with
    | none => s
    | some e =>
      if !laneReady T k e then s
      else
        let c : CtxId := cix e.ctx
        let flags := fun (s : State) (fl : Nat) => modC s t c (fun C => { C with vcsr := C.vcsr ||| toW (fl * 256) })
        match e.ins with
        | .vload .. => memGroup s t e
        | .vstore .. => memGroup s t e
        | .vmacm _ _ fp vd _ _ _ => macmGroup s t e fp vd
        | .vamo _ _ op _ _ b _ _ => amoGroup s t e op b
        | .vmvXS _ _ _ vs => laneNext s t (if e.next = 0 then { e with s1 := sextW (entBits e) (vGet T e vs 0) } else e)
        | .vmvSX _ _ vs _ =>
          if e.next ≠ 0 ∨ (e.tg = true ∧ e.path.getLsbD 0 = false) then laneNext s t e
          else laneNext (setT s t { T with vr := vPut T.vr e vs.val (entBytes e) 0 (e.s1.toNat % 2 ^ entBits e) false }) t e
        | .vreduceInt .. | .vreduceFp .. | .vrgather .. | .vslideup .. | .vslidedown .. | .vcompress .. =>
          if e.next + 1 < e.groups then laneNext s t e
          else
            let r := vWhole T e
            flags (laneNext (setT s t { T with vr := r.1 }) t e) r.2
        | _ =>
          let r := vGroup T e e.next
          flags (laneNext (setT s t { T with vr := r.1 }) t e) r.2)

/-- The vd value of element i of a vector atomic whose address held `old`: the pre-value after the elements below it at
the same address (R162). -/
def amoPre (T : Tile) (e : LaneEnt) (op : VAmoOp) (b : VReg) (p : Piece) : Nat :=
  (e.pieces.filter (fun q => q.addr == p.addr && decide (q.elem < p.elem))).foldl
    (fun acc q => amoNew (vAmoOp op) (entBytes e) acc (vGet T e b q.elem)) (ofLE (p.bytes.map (fun x => x.getD 0#8)))

/-- VLOAD_RESPONSE: elements of the k-th instruction whose bytes have arrived are written; a failing element takes a
free value and is remembered (R139). The elements of a vector atomic are written once all of them have responded, and
every element at a failing address takes a free value (R162, R163). -/
def execVloadResponse (t : TileId) (k : Nat) (s : State) : Host.Outcome State Fault Refusal :=
  .next (
    let T0 := getT s t
    match T0.lane[k]? with
    | none => s
    | some e =>
      let amo := match e.ins with | .vamo .. => true | _ => false
      let done := e.pieces.filter pieceDone
      if done.isEmpty || (amo && !(e.pieces.all pieceDone)) then s
      else
        let r := done.foldl (fun (a : State × Option RespFault) p =>
          let bad := if amo then e.pieces.find? (fun q => q.addr == p.addr && q.code != 0) else if p.code ≠ 0 then some p else none
          if let some q := bad then (vFree a.1 t e p.elem, lowerFault a.2 (elemFault e p.elem q.code p.addr))
          else
            let v := match e.ins with
              | .vamo _ _ op _ _ b _ _ => if op = .cas then ofLE (p.bytes.map (fun x => x.getD 0#8)) else amoPre T0 e op b p
              | _ => ofLE (p.bytes.map (fun x => x.getD 0#8))
            (modT a.1 t (fun T => { T with vr := vPut T.vr e (vDest e.ins).val (entBytes e) p.elem v false }), a.2))
          (s, e.fault)
        modT r.1 t (fun T => putEnt T { e with pieces := e.pieces.filter (fun p => !pieceDone p), fault := r.2 }))

/-- LANE_FINISH: the k-th instruction has performed its groups and its responses have arrived; it leaves the queue,
LN_VSTART is 0, a scalar result or the pointers of a `vmacm` are written, and its response fault is due (R127, R129,
R136, R139, R141). Where the two pointers of a `vmacm` are one register it increases twice, which R136 does not say
(DESIGN CHOICE, assumption 122). -/
def execLaneFinish (t : TileId) (k : Nat) (s : State) : Host.Outcome State Fault Refusal :=
  .next (
    let T := getT s t
    match T.lane[k]? with
    | none => s
    | some e =>
      let others := fun (p : LaneEnt → Bool) => T.lane.any (fun x => x.ctx == e.ctx && x.seq != e.seq && p x)
      if e.next < e.groups ∨ !e.pieces.isEmpty ∨ (e.stopped ∧ others (fun _ => true)) then s
      else
        let c : CtxId := cix e.ctx
        let keeps := e.stopped || others (fun x => x.stopped && decide (e.seq < x.seq))
        let s := setT s t { T with lane := T.lane.eraseIdx k }
        let s := modC s t c (fun C =>
          let C := if keeps then C else { C with vstart := 0 }
          let C := if e.stopped then C else match e.ins with
            | .vmvXS _ _ rd _ => if e.groups = 0 then C else xset C rd e.s1
            | .vmacm _ _ _ _ rs1 rs2 _ =>
              let n := toW (e.vl * entBytes e)
              let C := xset C rs1 (xget C rs1 + n)
              xset C rs2 (xget C rs2 + n)
            | _ => C
          if C.lastLane = some e.seq then { countDown C with lastLane := none } else C)
        let s := match e.fault with | some f => addFault s t c f | none => s
        tryEnter s t c)

end Machine
end Sys2Proof
end

