-- ==== Sys2Proof/Machine/Matrix.lean ====
section
/-!
DEFINITION. The matrix array: acceptance at `mxq` (R199, R200), issue (R201), passes and output rows with the bit-exact
arithmetic of R184 to R190, and completion (R209).
-/

namespace Sys2Proof
namespace Machine

/-! Acceptance (R199) -/

/-- An operand range as a seg3 access: none, or the first byte that fails (R75, R77, R200). -/
def mxLimit (T : Tile) (C : Ctx) (r : Nat × Nat × Nat × Nat) : Option Nat :=
  let lim := wfld C.segl[(3 : SegId)] 47 0
  let base := wfld C.sega[(3 : SegId)] 47 0
  if permOk C.sega[(3 : SegId)] r.1 = false then some r.2.1
  else if r.2.1 + r.2.2.1 > lim then some (max r.2.1 lim)
  else if base + r.2.1 + r.2.2.1 > T.lsBytes then some (max r.2.1 (T.lsBytes - base))
  else none

/-- The first failing check of Table 4: reason, field offset, and failing offset (R199). `sr` is PERMIT.ENABLES bit 1. -/
def mxCheck (T : Tile) (C : Ctx) (sr : Bool) (b : List Byte) : Option (Nat × Nat × Nat) :=
  let d := mxDesc b
  let g := mxGeoOf d
  let small := fmtSmall
  let reads := ((mxRanges d).filter (fun r => r.1 == 1)).map (fun r => (r.2.1, r.2.1 + r.2.2.1))
  let cSpan := (d.cOff, d.cOff + ((d.m - 1) * d.cStride + d.n * g.z))
  let rSpan := (d.recOff, d.recOff + 32)
  let rowBits := fun (j : Nat) => fld d.rowMask (g.h * j + g.h - 1) (g.h * j)
  if leAt b 2 1 / 8 ≠ 0 then some (0x01, 0x02, 0)
  else if leAt b 0x0A 2 ≠ 0 then some (0x01, 0x0A, 0)
  else if leAt b 0x3C 4 ≠ 0 then some (0x01, 0x3C, 0)
  else if (mxGeo d.afmt d.wfmt d.mode).isNone then some (0x02, 0x00, 0)
  else if d.resBf16 ∧ !(d.mode == 1 && fmtFp8 d.afmt) then some (0x02, 0x02, 0)
  else if (d.flush ∨ d.sr) ∧ fmtInt d.afmt then some (0x02, 0x03, 0)
  else if d.m = 0 ∨ d.m > 4096 then some (0x03, 0x04, 0)
  else if d.n = 0 ∨ d.n > 1024 then some (0x03, 0x06, 0)
  else if d.k = 0 ∨ d.k > 8192 then some (0x03, 0x08, 0)
  else if (d.aScaled ∧ !small d.afmt) ∨ (d.wScaled ∧ !small d.wfmt) ∨ (d.afmt = 0 ∧ !d.aScaled)
      ∨ (d.wfmt = 0 ∧ !d.wScaled) ∨ (d.block16 ∧ !d.aScaled ∧ !d.wScaled) then some (0x04, 0x03, 0)
  else if d.sr ∧ !sr then some (0x05, 0x03, 0)
  else if d.rowMask = 0 then some (0x06, 0x30, 0)
  else if d.colMask = 0 then some (0x06, 0x38, 0)
  else if (List.range (64 / g.h)).any (fun j => rowBits j != 0 && rowBits j != 2 ^ g.h - 1) then some (0x06, 0x30, 0)
  else if d.mode = 2 ∧ (List.range 16).any (fun j => bitN d.colMask (2 * j) != bitN d.colMask (2 * j + 1)) then
    some (0x06, 0x38, 0)
  else if d.aOff % 64 ≠ 0 then some (0x07, 0x10, 0)
  else if mxPk d > 1 ∧ (d.aKstride < mxV d * mxBv g ∨ d.aKstride % (if d.afmt = 1 ∨ d.afmt = 2 then 192 else 64) ≠ 0) then
    some (0x07, 0x14, 0)
  else if d.wOff % 64 ≠ 0 then some (0x07, 0x18, 0)
  else if d.wScaled ∧ d.wsOff % 64 ≠ 0 then some (0x07, 0x28, 0)
  else if d.cOff % 64 ≠ 0 then some (0x07, 0x1C, 0)
  else if d.cStride % 64 ≠ 0 ∨ d.cStride < d.n * g.z then some (0x07, 0x20, 0)
  else if d.recEn ∧ d.recOff % 32 ≠ 0 then some (0x07, 0x2C, 0)
  else
    match (mxRanges d).findSome? (fun r => (mxLimit T C r).map (fun o => (0x08, r.2.2.2, o))) with
    | some x => some x
    | none =>
      if reads.any (spanMeets cSpan) ∨ (d.recEn ∧ spanMeets cSpan rSpan) then some (0x09, 0x1C, 0)
      else if d.recEn ∧ reads.any (spanMeets rSpan) then some (0x09, 0x2C, 0)
      else none

/-- The descriptor bytes an `mxq` reads. -/
def mxqBytes (s : State) (t : Nat) (C : Ctx) (rs1 : Reg) : List Byte :=
  stReadN (getT s t).store (segAddr C 3 (xget C rs1).toNat) 64

/-- MXQ: read, check and accept a descriptor; it waits while sixteen are queued (R199). -/
def execMxq (t : TileId) (c : CtxId) (rd rs1 : Reg) (s : State) : Host.Outcome State Fault Refusal :=
  .next (issueWith s t c [rd, rs1]
    (afterFence t c (fun s C =>
      let T := getT s t
      let o := (xget C rs1).toNat
      if T.mx.length ≥ 16 then .wait s
      else
        orFault [alignCheck 3 o 64 1, checkAccess s t C 3 1 [(o, 64)]]
          (let r := lsRead s t (segAddr C 3 o) 64
           if r.2.1 then
             let seq := T.seq + 1
             .ok (dueFault (modT r.2.2 t (fun T => { T with seq := seq })) t c (lsFault T t seq C.pc (segAddr C 3 o) 64 1)) none
           else
             match mxCheck T C (permit s 1) r.1 with
             | some _ => .fault (plainFault 0x0B 0)
             | none =>
               let n := C.mxIssued + 1
               let e : MxEnt :=
                 { ctx := c.val, seq := n, desc := r.1, base := wfld C.sega[(3 : SegId)] 47 0, issued := none, s0 := 0
                   pass := 0, row := 0, lfsr := [], saturated := 0, flushed := 0, nans := 0, poison := false
                   spoil := false, hidden := [] }
               let e := { e with hidden := unseen r.2.2 t c (mxSpans e false ++ mxSpans e true) }
               let s := modT r.2.2 t (fun T => { T with mx := T.mx ++ [e] })
               .ok (setC s t c (xset { C with mxIssued := n } rd (toW n.toNat))) none)))
    (fun s target => finish s t c target)
    (fun s f =>
      let C := getC s t c
      let s := if f.code = 0x0B then
          match mxCheck (getT s t) C (permit s 1) (mxqBytes s t C rs1) with
          | some (r, fo, o) => setC s t c { C with mxreject := toW (o % 2 ^ 32 * 2 ^ 32 + fo * 256 + r) }
          | none => s
        else s
      raiseFault s t c f))

/-! Issue (R195 to R197, R201) -/

/-- Passes of a descriptor (R194). -/
def mxP (d : MxDesc) : Nat := mxPk d * mxPn d
/-- WL (R195). -/
def mxWl (d : MxDesc) : Nat := mxWt (mxGeoOf d) / 256 + b2n d.wScaled
/-- I, the pass interval (R196). -/
def mxInt (d : MxDesc) : Nat := max (max d.m (mxWl d)) 8
/-- Start cycle of the last pass (R196). -/
def mxLast (e : MxEnt) : Nat := e.s0 + (mxP (mxDesc e.desc) - 1) * mxInt (mxDesc e.desc)

/-! Arithmetic (R184 to R189) -/

/-- A part: NaN, infinity of a sign, or v × 2^le (R184 `part_t`). -/
structure MxPart where
  nan : Bool
  inf : Bool
  neg : Bool
  v : Int
  le : Int
deriving DecidableEq, Repr

/-- A part of value zero. -/
def mxZero : MxPart := { nan := false, inf := false, neg := false, v := 0, le := 0 }

/-- The element format of a format code (08 Table 3). -/
def mxFmt (f : Nat) : FFmt :=
  match f with
  | 0 => fp4e2m1 | 1 => fp6e2m3 | 2 => fp6e3m2 | 3 => fp8e4m3 | 4 => fp8e5m2 | 5 => bf16 | 6 => fp16 | 7 => fp32 | _ => fp64

/-- A carry format: W, e_min, e_max (R180). -/
def mxCarry (mode : Nat) : Nat × Int × Int :=
  match mode with | 0 => (30, -126, 127) | 1 => (14, -126, 127) | _ => (60, -1022, 1023)

/-- A right shift of a magnitude by an integer count, left where it is negative. -/
def shiftMag (m : Nat) (by_ : Int) : Nat := if by_ ≥ 0 then m <<< by_.toNat else m >>> (-by_).toNat

/-- A band of products of the elements that take part (R184 `band`). -/
def mxBand (fa fw : FFmt) (xs : List (Nat × Nat)) (sa sw : Nat) : MxPart :=
  let vs := xs.map (fun p => (fDecode fa p.1, fDecode fw p.2))
  let isNan := fun (v : FVal) => match v with | .nan _ => true | _ => false
  let isInf := fun (v : FVal) => match v with | .inf _ => true | _ => false
  let isZero := fun (v : FVal) => match v with | .num _ 0 _ => true | _ => false
  let neg := fun (v : FVal) => match v with | .inf n => n | .num n _ _ => n | .nan _ => false
  let bad := fun (p : FVal × FVal) => isNan p.1 || isNan p.2 || (isInf p.1 && isZero p.2) || (isZero p.1 && isInf p.2)
  let nan := vs.any bad || (!xs.isEmpty && (sa == 0xFF || sw == 0xFF))
  let infs := vs.filter (fun p => !bad p && (isInf p.1 || isInf p.2))
  let pinf := infs.any (fun p => neg p.1 == neg p.2)
  let ninf := infs.any (fun p => neg p.1 != neg p.2)
  if nan || (pinf && ninf) then { mxZero with nan := true }
  else if pinf || ninf then { mxZero with inf := true, neg := ninf }
  else
    let prods := vs.filterMap (fun p =>
      match p.1, p.2 with
      | .num na ma la, .num nb mb lb =>
        if ma = 0 ∨ mb = 0 then none
        else some (xor na nb, ma * mb, la + (fa.mbits : Int) + lb + (fw.mbits : Int))
      | _, _ => none)
    match prods with
    | [] => mxZero
    | q :: r =>
      let emax := r.foldl (fun m x => max m x.2.2) q.2.2
      let v := prods.foldl (fun (a : Int) x =>
        let m : Int := ((shiftMag x.2.1 (x.2.2 - emax + 3) : Nat) : Int)
        if x.1 then a - m else a + m) 0
      { mxZero with v := v, le := emax - (fa.mbits + fw.mbits + 3 : Nat) + ((sa : Int) - 127) + ((sw : Int) - 127) }

/-- A part's value in units of 2^L, its magnitude truncated (R184 `at`). -/
def mxAt (x : MxPart) (L : Int) : Int :=
  let m : Int := ((shiftMag x.v.natAbs (x.le - L) : Nat) : Int)
  if x.v < 0 then -m else m

/-- Weight of the leading bit. -/
def mxTop (x : MxPart) : Int := x.le + (bitlen x.v.natAbs : Int) - 1

/-- Normalise into the carry format (R184 `carry_norm`). -/
def mxNorm (c : Nat × Int × Int) (x : MxPart) : MxPart :=
  if x.v = 0 then mxZero
  else if mxTop x > c.2.2 then { mxZero with inf := true, neg := decide (x.v < 0) }
  else
    let L := max (mxTop x) c.2.1 - ((c.1 : Int) - 1)
    { mxZero with v := mxAt x L, le := L }

/-- Add a band to the carry (R184 `carry_add`). -/
def mxAdd (c : Nat × Int × Int) (C B : MxPart) : MxPart :=
  if C.nan || B.nan || (C.inf && B.inf && C.neg != B.neg) then { mxZero with nan := true }
  else if C.inf then C
  else if B.inf then B
  else if B.v = 0 then C
  else if C.v = 0 then mxNorm c B
  else
    let L := max (mxTop C) (mxTop B) - ((c.1 : Int) - 1) - 3
    mxNorm c { mxZero with v := mxAt C L + mxAt B L, le := L }

/-- The counters of R190, of one exit: saturated, flushed, NaN. -/
abbrev MxCount := Nat × Nat × Nat

/-- An exit that overflows (R186, R189). -/
def mxOverflow (o : FFmt) (neg sat : Bool) : Nat × MxCount := (if sat then fMax o neg else fInf o neg, 1, 0, 0)

/-- The floating exit (R186 `exit_fp`); `r` is the stochastic draw where the descriptor rounds stochastically. -/
def mxExitFp (o : FFmt) (C : MxPart) (acc : Nat) (sat flush : Bool) (r : Option Nat) : Nat × MxCount :=
  let go := fun (neg : Bool) (m : Nat) (le : Int) =>
    let e := max (le + (bitlen m : Int) - 1) (fEmin o)
    let ql := e - (o.mbits : Int)
    let q := if ql > le then
        let sh := (ql - le).toNat
        let q := m >>> sh
        let rem := m % 2 ^ sh
        let half := 2 ^ (sh - 1)
        let up := match r with
          | some r => decide ((((rem <<< 32) >>> sh) + r) >>> 32 ≠ 0)
          | none => decide (rem > half) || (rem == half && q % 2 == 1)
        q + b2n up
      else m <<< (le - ql).toNat
    let (q, e) := if q >>> (o.mbits + 1) ≠ 0 then (q / 2, e + 1) else (q, e)
    if e > fEmax o then mxOverflow o neg sat
    else if q < 2 ^ o.mbits then
      if q ≠ 0 ∧ flush then (fPack o neg 0 0, 0, 1, 0) else (fPack o neg 0 q, 0, 0, 0)
    else (fPack o neg ((e + (o.bias : Int)).toNat) (q - 2 ^ o.mbits), 0, 0, 0)
  match fDecode o acc with
  | .nan _ => (fQnan o, 0, 0, 1)
  | .inf na =>
    if C.nan || (C.inf && C.neg != na) then (fQnan o, 0, 0, 1) else mxOverflow o (if C.inf then C.neg else na) sat
  | .num na ma la =>
    if C.nan then (fQnan o, 0, 0, 1)
    else if C.inf then mxOverflow o C.neg sat
    else if C.v = 0 then (if ma = 0 then (acc, 0, 0, 0) else go na ma la)
    else
      let L := min C.le la
      let a : Int := ((ma <<< (la - L).toNat : Nat) : Int)
      let sum := (if na then -a else a) + C.v * ((2 ^ (C.le - L).toNat : Nat) : Int)
      if sum = 0 then (fPack o false 0 0, 0, 0, 0) else go (decide (sum < 0)) sum.natAbs L

/-- The integer exit of w bits (R186 `exit_int`). -/
def mxExitInt (w : Nat) (sum : Int) (sat : Bool) : Nat × MxCount :=
  let lo : Int := -((2 ^ (w - 1) : Nat) : Int)
  let hi : Int := ((2 ^ (w - 1) - 1 : Nat) : Int)
  if sum < lo ∨ sum > hi then (wrapI w (if sat then (if sum < lo then lo else hi) else sum), 1, 0, 0)
  else (wrapI w sum, 0, 0, 0)

/-- One LFSR step (R188 `draw`). -/
def lfsrStep (x : Nat) : Nat := if x % 2 = 1 then (x / 2) ^^^ 0x80200003 else x / 2

/-- The seed of column c (R188). -/
def lfsrSeed (seed c : Nat) : Nat :=
  let v := (seed ^^^ (0x9E3779B9 * (c + 1) % 2 ^ 32)) % 2 ^ 32
  if v = 0 then 1 else v

/-! Operands (R204 to R208) -/

/-- A packed element of a width in bits at an index (R176). -/
def packedElem (m : Store) (base bits idx : Nat) : Nat :=
  if bits = 4 then (stRead m (base + idx / 2)).toNat / 16 ^ (idx % 2) % 16
  else if bits = 6 then stReadLE m (base + idx / 4 * 3) 3 / 64 ^ (idx % 4) % 64
  else stReadLE m (base + idx * (bits / 8)) (bits / 8)

/-- The result format of a descriptor (R179): none for integers. -/
def mxOut (d : MxDesc) : Option FFmt :=
  if fmtInt d.afmt then none
  else match d.mode with
    | 0 => some fp32
    | 1 => some (if d.afmt = 5 ∨ (fmtFp8 d.afmt ∧ d.resBf16) then bf16 else fp16)
    | _ => some fp64

/-- BAND (R182). -/
def mxBandLen (d : MxDesc) : Nat :=
  if d.aScaled || d.wScaled then (if d.block16 then 16 else 32)
  else match d.afmt with | 7 => 8 | 8 => 4 | _ => 16

/-- Column c of pass p is active (R208). -/
def mxColActive (d : MxDesc) (p c : Nat) : Bool :=
  bitN d.colMask (if d.mode = 2 then 2 * c else c) && decide ((mxGeoOf d).np * (p / mxPk d) + c < d.n)

/-- Reduction index r of pass p takes part: its row group is active and the index lies below K (R182, R208). -/
def mxRowActive (d : MxDesc) (p r : Nat) : Bool :=
  let g := mxGeoOf d
  bitN d.rowMask (g.h * (r / g.e)) && decide (g.kp * (p % mxPk d) + r < d.k)

/-- The activation and weight encodings of reduction index r of pass p, row m, column c, from local store and the active
buffer (R195, R204, R205). -/
def mxPair (m w : Store) (e : MxEnt) (d : MxDesc) (p row c r : Nat) : Nat × Nat :=
  let g := mxGeoOf d
  let a := e.base + d.aOff + p % mxPk d * d.aKstride + (row + g.h * (r / g.e)) * mxBv g
  (packedElem m a g.abits r, packedElem w 0 g.wbits (r * g.np + c))

/-- The scales of band b (R206): 127 where an operand carries none. -/
def mxScales (m w : Store) (e : MxEnt) (d : MxDesc) (p row c b : Nat) : Nat × Nat :=
  ((if d.aScaled then (stRead m (e.base + d.asOff + (p % mxPk d * d.m + row) * mxNb d + b)).toNat else 127),
   (if d.wScaled then (stRead w (mxWt (mxGeoOf d) + b * 32 + c)).toNat else 127))

/-- The elements of band b of pass p that take part. -/
def mxBandElems (m w : Store) (e : MxEnt) (d : MxDesc) (p row c b : Nat) : List (Nat × Nat) :=
  (((List.range (mxBandLen d)).map (fun j => b * mxBandLen d + j)).filter (mxRowActive d p)).map (mxPair m w e d p row c)

/-- One output element of a pass, from local store m and the active buffer w: its new encoding and what it counts (R184,
R195). -/
def mxElem (m w : Store) (e : MxEnt) (d : MxDesc) (p row c acc : Nat) (r : Option Nat) : Nat × MxCount :=
  let g := mxGeoOf d
  let bands := List.range (g.kp / mxBandLen d)
  match mxOut d with
  | some o =>
    let fa := mxFmt d.afmt
    let fw := mxFmt d.wfmt
    let C := bands.foldl (fun C b =>
      let sc := mxScales m w e d p row c b
      mxAdd (mxCarry d.mode) C (mxBand fa fw (mxBandElems m w e d p row c b) sc.1 sc.2)) mxZero
    mxExitFp o C acc d.sat d.flush r
  | none =>
    let v := bands.foldl (fun (v : Int) b =>
      (mxBandElems m w e d p row c b).foldl (fun v x => v + sInt g.abits x.1 * sInt g.wbits x.2) v) 0
    mxExitInt (8 * g.z) (sInt (8 * g.z) acc + v) d.sat

/-- Local-store offset of C[m][n] (R207). -/
def mxCAddr (e : MxEnt) (d : MxDesc) (row n : Nat) : Nat := e.base + d.cOff + row * d.cStride + n * (mxGeoOf d).z

/-- A counter that stops at 0xFFFF_FFFF (R190). -/
def satAdd (a b : Nat) : Nat := min (a + b) 0xFFFFFFFF

/-- Replace an array-queue entry. -/
def putMx (T : Tile) (e : MxEnt) : Tile :=
  { T with mx := T.mx.map (fun x => if x.ctx = e.ctx ∧ x.seq = e.seq then e else x) }

/-- Read spans of local store for the array: poisoned bytes mark the descriptor (R209). -/
def mxReadSpans (s : State) (t : Nat) (e : MxEnt) (spans : List (Nat × Nat)) : State × MxEnt :=
  spans.foldl (fun (a : State × MxEnt) x =>
    let r := lsRead a.1 t x.1 x.2
    (r.2.2, { a.2 with poison := a.2.poison || r.2.1 })) (s, e)

/-- The local store as a descriptor's array reads see it (R203). -/
def mxView (m : Store) (e : MxEnt) : Store := e.hidden.foldl (fun m x => stWrite m x.1 x.2) m

/-- The weight tile of pass p loads into the shadow buffer, with its block scales where the weights are scaled (R195, R205,
R206). -/
def mxLoad (s : State) (t : Nat) (e : MxEnt) (p : Nat) : State :=
  let d := mxDesc e.desc
  let n := mxWt (mxGeoOf d)
  let spans := (e.base + d.wOff + p * n, n) :: (if d.wScaled then [(e.base + d.wsOff + p * 32 * mxNb d, 32 * mxNb d)] else [])
  let m := mxView (getT s t).store e
  let r := mxReadSpans s t e spans
  modT r.1 t (fun T => { putMx T r.2 with
    mxShadow := some { ctx := e.ctx, seq := e.seq, pass := p
                       w := stWriteN (stEmpty 13) 0 (spans.flatMap (fun x => stReadN m x.1 x.2)) } })

/-- The issued descriptor whose pass starts next. -/
def mxNext (T : Tile) : Option MxEnt := T.mx.find? (fun m => m.issued.isSome && decide (m.pass < mxP (mxDesc m.desc)))

/-- The next tile starts to load where the shadow is free: the next pass of a descriptor, or the first of the next issued one
(R195). -/
def mxRefill (s : State) (t : Nat) : State :=
  if (getT s t).mxShadow.isSome then s
  else match mxNext (getT s t) with
    | none => s
    | some e => mxLoad s t e e.pass

/-- MX_ISSUE: the oldest descriptor that has not issued issues at the cycle given, once no condition of R201 holds it; one
issues in a cycle; its first weight tile loads once the shadow is free (R195 to R197, R201). -/
def execMxIssue (t : TileId) (cycle : Nat) (s : State) : Host.Outcome State Fault Refusal :=
  .next (
    let T := getT s t
    match mxHead T with
    | none => s
    | some e =>
      let before := (T.mx.filter (fun m => m.issued.isSome)).getLast?
      let late := match before with | some p => decide (p.issued.getD 0 < cycle) | none => true
      if headWait T ≠ 0 ∨ !late ∨ T.tstate ≠ .t0 ∨ T.held then s
      else
        let d := mxDesc e.desc
        let s0 := match before with
          | none => cycle + mxWl d
          | some p => max (mxLast p + mxInt (mxDesc p.desc)) (max cycle (mxLast p) + mxWl d)
        let e' := { e with issued := some cycle, s0 := s0 }
        mxRefill (setT s t { T with mx := T.mx.map (fun m => if m.issued.isNone ∧ m.ctx = e.ctx ∧ m.seq = e.seq then e' else m) }) t)

/-- The shadow holds the weights of pass p of a descriptor. -/
def mxHolds (x : MxTile) (e : MxEnt) (p : Nat) : Bool := x.ctx == e.ctx && x.seq == e.seq && x.pass == p

/-- MX_PASS_START: the next pass of the oldest issued descriptor with one to start begins: the shadow becomes the active buffer
and the next tile starts to load; its activations are read, and with its first pass the column LFSRs are seeded (R194 to
R196, R203, R210). -/
def execMxPassStart (t : TileId) (s : State) : Host.Outcome State Fault Refusal :=
  .next (
    match mxNext (getT s t) with
    | none => s
    | some e =>
      let d := mxDesc e.desc
      let g := mxGeoOf d
      let p := e.pass
      let s := if ((getT s t).mxShadow).any (fun x => mxHolds x e p) then s else mxLoad s t e p
      let T := getT s t
      let e := (mxNext T).getD e
      let e1 := { e with pass := p + 1
                         lfsr := if p = 0 then (List.range 32).map (lfsrSeed d.seed) else e.lfsr }
      let r := mxReadSpans s t e1
        ((e.base + d.aOff + p % mxPk d * d.aKstride, mxV d * mxBv g)
          :: (if d.aScaled then [(e.base + d.asOff + p % mxPk d * d.m * mxNb d, d.m * mxNb d)] else []))
      mxRefill (modT r.1 t (fun T => { putMx T r.2 with mxShadow := none, mxActive := T.mxActive ++ T.mxShadow.toList })) t)

/-- Write masked bytes of local store; a word written whole loses its poison (R218). -/
def lsWriteOpt (T : Tile) (o : Nat) (bs : List (Option Byte)) : Tile :=
  let whole := fun (w : Nat) => decide (o ≤ 8 * w) && (List.range 8).all (fun i => ((bs[8 * w + i - o]?).join).isSome)
  { T with store := stWriteOpt T.store o bs
           poison := T.poison.filter (fun w => !whole w), latent := T.latent.filter (fun w => !whole w) }

/-- MX_ROW_EXIT: the next output row of the oldest descriptor with one in the array leaves it and its rounded results
reach local store (R184 to R188, R196, R207, R208, R210). -/
def execMxRowExit (t : TileId) (s : State) : Host.Outcome State Fault Refusal :=
  .next (
    let T := getT s t
    match T.mx.find? (fun m => m.issued.isSome && decide (m.row < m.pass * (mxDesc m.desc).m)) with
    | none => s
    | some e =>
      let d := mxDesc e.desc
      let g := mxGeoOf d
      let p := e.row / d.m
      let row := e.row % d.m
      let n0 := g.np * (p / mxPk d)
      let cols := (List.range g.np).filter (mxColActive d p)
      let reads := d.accRead || p % mxPk d != 0
      let rd := if reads then mxReadSpans s t e (cols.map (fun c => (mxCAddr e d row (n0 + c), g.z))) else (s, e)
      let T1 := getT rd.1 t
      let m := mxView T1.store e
      let w := ((T1.mxActive.find? (fun x => mxHolds x e p)).map (·.w)).getD (stEmpty 13)
      let r := cols.foldl (fun (a : List (Option Byte) × MxEnt) c =>
        let ls := if d.mode = 2 then 2 * c else c
        let x := a.2.lfsr.getD ls 0
        let acc := if reads then stReadLE m (mxCAddr e d row (n0 + c)) g.z else 0
        let v := mxElem m w e d p row c acc (if d.sr then some x else none)
        let e1 := { a.2 with lfsr := if d.sr then a.2.lfsr.set ls (lfsrStep x) else a.2.lfsr
                             saturated := satAdd a.2.saturated v.2.1, flushed := satAdd a.2.flushed v.2.2.1
                             nans := satAdd a.2.nans v.2.2.2 }
        ((List.range (g.np * g.z)).map (fun i =>
          if c * g.z ≤ i ∧ i < (c + 1) * g.z then (toLE g.z v.1)[i - c * g.z]? else (a.1[i]?).join), e1))
        ([], rd.2)
      let o := mxCAddr e d row n0
      modT rd.1 t (fun T =>
        let T := allSee (putMx T { r.2 with row := e.row + 1 }) (fun x => decide (o ≤ x) && ((r.1[x - o]?).join).isSome)
        lsWriteOpt (if row + 1 = d.m then { T with mxActive := T.mxActive.filter (fun x => !mxHolds x e p) } else T) o r.1))

/-- The completion record (R209 Table 6). -/
def mxRecord (e : MxEnt) : List Byte :=
  let d := mxDesc e.desc
  toLE 4 e.seq.toNat ++ toLE 2 (b2n e.poison) ++ toLE 2 0 ++ toLE 4 e.saturated ++ toLE 4 e.flushed ++ toLE 4 e.nans
    ++ toLE 4 0 ++ toLE 8 (mxLast e + d.m + 103 - e.issued.getD 0)

/-- The results of a descriptor that read an uncorrectable error, or into whose ranges a context stored, are
unpredictable (R202, R209). -/
def mxForget (s : State) (t : Nat) (e : MxEnt) : State :=
  if e.poison || e.spoil then
    let d := mxDesc e.desc
    let g := mxGeoOf d
    let cols := (List.range d.n).filter (fun n => bitN d.colMask (if d.mode = 2 then 2 * (n % g.np) else n % g.np))
    let s := modT s t (fun T => { T with store := (List.range d.m).foldl (fun m row =>
      cols.foldl (fun m n => stFreeN m s.draws (mxCAddr e d row n) g.z) m) T.store })
    { s with draws := s.draws + 1 }
  else s

/-- Active array cell-cycles of a descriptor, and bytes moved at the array's local-store ports (R208, R214). -/
def mxActivity (d : MxDesc) : Nat × Nat :=
  let g := mxGeoOf d
  (List.range (mxP d)).foldl (fun a p =>
    let rows := ((List.range 64).filter (fun r => bitN d.rowMask r && decide (p % mxPk d * g.kp + r / g.h * g.e < d.k))).length
    let cols := ((List.range g.np).filter (mxColActive d p)).length
    let phys := if d.mode = 2 then 2 * cols else cols
    let scales := (if d.aScaled then d.m * mxNb d else 0) + (if d.wScaled then 32 * mxNb d else 0)
    let c := cols * d.m * g.z
    (a.1 + rows * phys * d.m, a.2 + mxV d * mxBv g + mxWt g + scales + c + (if d.accRead || p % mxPk d != 0 then c else 0)))
    (0, if d.recEn then 32 else 0)

/-- MX_COMPLETE: the oldest descriptor, all of whose rows have left, completes: its record is written, DONE of its
context counts it, and contexts that wait for it go on (R196, R209, R211). -/
def execMxComplete (t : TileId) (s : State) : Host.Outcome State Fault Refusal :=
  .next (
    let T := getT s t
    match T.mx with
    | [] => s
    | e :: _ =>
      let d := mxDesc e.desc
      if e.issued.isNone ∨ e.row < mxP d * d.m then s
      else
        let c : CtxId := cix e.ctx
        let s := mxForget s t e
        let o := e.base + d.recOff
        let s := if d.recEn then modT (lsWrite s t o (mxRecord e)) t (fun T => allSee T (fun x => decide (o ≤ x) && decide (x < o + 32))) else s
        let w := mxActivity d
        let s := modT s t (fun T => actAdd (actAdd { T with mx := T.mx.tail } 1 w.1) 3 w.2)
        let s := modC s t c (fun C => { C with mxDone := C.mxDone + 1 })
        launchCheck (if (getC s t c).pend.isNone then mxwaitWake s t c else s) t)

end Machine
end Sys2Proof
end

