-- ==== Sys2Proof/Machine/RangeEngine.lean ====
section
/-!
DEFINITION. The range engine (R229 to R231): what an operation still waits for, its start and its completion.
-/

namespace Sys2Proof
namespace Machine

/-- A masked write at an address writes some byte of [a, a + n). -/
def writesInto (addr : Nat) (bs : List (Option Byte)) (a n : Nat) : Bool :=
  (List.range bs.length).any (fun i => ((bs[i]?).join).isSome && a ≤ addr + i && addr + i < a + n)

/-- A vector store or atomic that has not finished may still write some byte of [a, a + n) with groups that it has not
performed: by its elements' addresses where no earlier instruction of its context is unfinished, whose results its index
and mask could be (R128, R229). -/
def laneToWrite (s : State) (t : Nat) (e : LaneEnt) (a n : Nat) : Bool :=
  let T := getT s t
  let C := T.ctx[cix e.ctx]
  decide (e.next < e.groups) && (T.lane.any (fun p => p.ctx == e.ctx && decide (p.seq < e.seq))
    || ((List.range e.groups).filter (fun k => decide (e.next ≤ k))).any (fun k => (groupActive T e k).any (fun i =>
        let x := fabAddr s C (laneSeg e.ins) (vOffset T e i)
        decide (x < a + n) && decide (a < x + entBytes e))))

/-- The write or atomic of a number that a `rclean` waits for is still out (09 Table 4). -/
def rangeOut (s : State) (t : Nat) (a n q : Nat) : Bool :=
  let T := getT s t
  T.mb.any (fun e => e.seq == q && writesInto e.addr e.bytes a n)
    || T.writes.any (fun w => w.seq == q && writesInto w.addr w.bytes a n)
    || T.reads.any (fun r => r.seq == q)
    || T.lane.any (fun e => e.seq == q && (laneToWrite s t e a n
        || T.reads.any (fun r => r.owner == .lane q && r.atomic.isSome && decide (r.addr < a + n) && decide (a < r.addr + r.n))))
    || T.ctx.toList.any (fun C => C.loads.any (fun l => l.seq == q && l.kind != .sched && l.data.isNone && l.fault.isNone))

/-- RANGE_OP_START: the oldest operation starts (R229). -/
def execRangeOpStart (t : TileId) (s : State) : Host.Outcome State Fault Refusal :=
  .next (
    let T := getT s t
    match T.rangeQ with
    | [] => s
    | r :: rest => if r.started then s else setT s t { T with rangeQ := { r with started := true } :: rest })

/-- RANGE_OP_COMPLETE: the operation under way completes once every write that it waits for has been acknowledged; lines
of an invalidated range leave the L1D and the tile cache (R229, R230, R231). -/
def execRangeOpComplete (t : TileId) (s : State) : Host.Outcome State Fault Refusal :=
  .next (
    let T := getT s t
    match T.rangeQ with
    | [] => s
    | r :: rest =>
      if !r.started || r.waits.any (rangeOut s t r.addr r.len) then s
      else
        let T := if r.kind = 1 ∨ r.seg3 ∨ r.len = 0 then T else dropRange T r.addr r.len
        let c : CtxId := cix r.ctx
        let C := T.ctx[c]
        setT s t (tileSetC { T with rangeQ := rest } c { C with rgDone := C.rgDone + 1 }))

end Machine
end Sys2Proof
end

