-- ==== Sys2Proof/Machine/RtMath.lean ====
section
/-!
DEFINITION. The service runtime's arithmetic: the correctly rounded functions, the matrix products, a model's forward
pass (R341) and sampling (R350).
-/

namespace Sys2Proof
namespace Machine

/-! Correctly rounded functions, in fixed point of 512 fraction bits (R341, R350) -/

/-- Fraction bits. -/
def fixP : Nat := 512

/-- e^x for a fixed-point x ≥ 0 below 128: a series of x / 2^16, squared 16 times. -/
def expFix (x : Nat) : Nat :=
  let t := x / 2 ^ 16
  let r := (List.range 40).foldl (fun (a : Nat × Nat) k =>
    let term := a.2 * t / 2 ^ fixP / (k + 1)
    (a.1 + term, term)) (2 ^ fixP, 2 ^ fixP)
  (List.range 16).foldl (fun v _ => v * v / 2 ^ fixP) r.1

/-- A magnitude m × 2^le in fixed point. -/
def toFix (m : Nat) (le : Int) : Nat := shiftMag m (le + (fixP : Int))

/-- `expf_rn`: the correctly rounded FP32 exponential. -/
def expRn (a : Nat) : Nat :=
  match fDecode fp32 a with
  | .nan _ => fQnan fp32
  | .inf neg => if neg then 0 else fInf fp32 false
  | .num neg m le =>
    let big := decide (le + (bitlen m : Int) > 7)
    if big then (if neg then 0 else fInf fp32 false)
    else
      let e := expFix (toFix m le)
      (fRound fp32 0 false (if neg then 2 ^ (2 * fixP) / e else e) (-(fixP : Int))).1

/-- arctan(1 / n) in fixed point. -/
def atanInv (n : Nat) : Nat :=
  let s := (List.range 200).foldl (fun (a : Int × Nat) k =>
    let t : Int := ((a.2 / (2 * k + 1) : Nat) : Int)
    (if k % 2 = 0 then a.1 + t else a.1 - t, a.2 / (n * n))) ((0 : Int), 2 ^ fixP / n)
  s.1.toNat

/-- π in fixed point. -/
def piFix : Nat := 16 * atanInv 5 - 4 * atanInv 239

/-- The error function of a fixed-point x below 4, by its series. -/
def erfFix (x : Nat) : Nat :=
  let s := (List.range 220).foldl (fun (a : Int × Nat) n =>
    let t : Int := ((a.2 / (2 * n + 1) : Nat) : Int)
    (if n % 2 = 0 then a.1 + t else a.1 - t, a.2 * x / 2 ^ fixP * x / 2 ^ fixP / (n + 1))) ((0 : Int), x)
  s.1.toNat * isqrt (4 * 2 ^ (3 * fixP) / piFix) / 2 ^ fixP

/-- `erff_rn`: the correctly rounded FP32 error function. -/
def erfRn (a : Nat) : Nat :=
  let one := fun (neg : Bool) => if neg then u32one + 2 ^ 31 else u32one
  match fDecode fp32 a with
  | .nan _ => fQnan fp32
  | .inf neg => one neg
  | .num neg m le =>
    if m = 0 then a
    else if le + (bitlen m : Int) > 2 then one neg
    else (fRound fp32 0 neg (erfFix (toFix m le)) (-(fixP : Int))).1

/-- FP32 of a natural number. -/
def u32nat (n : Nat) : Nat := (fRound fp32 0 false n 0).1
/-- FP32 maximum (R191). -/
def u32max (a b : Nat) : Nat := (fMinMax fp32 true a b).1
/-- FP32 a < b, false with a NaN. -/
def u32lt (a b : Nat) : Bool := !(anyNan [fDecode fp32 a, fDecode fp32 b]) && fOrd (fDecode fp32 a) (fDecode fp32 b) == .lt
/-- FP32 a = b, false with a NaN. -/
def u32eq (a b : Nat) : Bool := !(anyNan [fDecode fp32 a, fDecode fp32 b]) && fOrd (fDecode fp32 a) (fDecode fp32 b) == .eq
/-- FP32 sum in ascending index order (R341). -/
def u32sum (l : List Nat) : Nat := l.foldl u32add 0
/-- FP32 product sum in ascending index order. -/
def u32dot (a b : List Nat) : Nat := u32sum ((a.zip b).map (fun p => u32mul p.1 p.2))
/-- A finite FP32 value that is not below a bound. -/
def u32fin (a : Nat) : Bool := match fDecode fp32 a with | .num _ _ _ => true | _ => false

/-! The image (R340, R341) -/

/-- The header of a model image (14 Table 1). -/
structure ImHdr where
  layers : Nat
  dModel : Nat
  heads : Nat
  kvHeads : Nat
  headDim : Nat
  ffn : Nat
  vocab : Nat
  ctxMax : Nat
  eos : Nat
  wfmt : Nat
  kvfmt : Nat
  tokenise : Bool
  gated : Bool
  tensors : Nat
  tensorOff : Nat
  vocabOff : Nat
  kvScale : Nat
  ropeBase : Nat
  normEps : Nat

/-- The header's fields. -/
def imHdr (b : List Byte) : ImHdr :=
  { layers := leAt b 0x06 2, dModel := leAt b 0x08 2, heads := leAt b 0x0A 2, kvHeads := leAt b 0x0C 2, headDim := leAt b 0x0E 2
    ffn := leAt b 0x10 4, vocab := leAt b 0x14 4, ctxMax := leAt b 0x18 4, eos := leAt b 0x1C 4, wfmt := leAt b 0x20 1
    kvfmt := leAt b 0x21 1, tokenise := (leAt b 0x22 1).testBit 0, gated := (leAt b 0x22 1).testBit 1
    tensors := leAt b 0x24 4, tensorOff := leAt b 0x28 8, vocabOff := leAt b 0x30 8, kvScale := leAt b 0x38 4
    ropeBase := leAt b 0x3C 4, normEps := leAt b 0x48 4 }

/-- Q and R of R341. -/
def imQ (h : ImHdr) : Nat := h.heads * h.headDim
def imR (h : ImHdr) : Nat := h.kvHeads * h.headDim

/-- Element format, element bits and block size of a weight (R341). -/
def imFmt (h : ImHdr) : FFmt := if h.wfmt = 2 then fp8e4m3 else fp4e2m1
def imBits (h : ImHdr) : Nat := if h.wfmt = 2 then 8 else 4
def imBlock (h : ImHdr) : Nat := if h.wfmt = 1 then 16 else 32

/-- KV bytes per token (R340). -/
def kvBytes (h : ImHdr) : Nat := 2 * h.layers * h.kvHeads * h.headDim * (if h.kvfmt = 0 then 1 else 2)

/-- Bytes of one column of a weight tensor, and of a weight tensor (R341). -/
def colLen (h : ImHdr) (k : Nat) : Nat := k * imBits h / 8 + k / imBlock h
def weightLen (h : ImHdr) (k n : Nat) : Nat := n * colLen h k

/-- The tensors a directory must name: LAYER, KIND, LENGTH (14 Table 9). -/
def imTensors (h : ImHdr) : List (Nat × Nat × Nat) :=
  let d := h.dModel
  (0xFFFF, 1, weightLen h d h.vocab) :: (List.range h.layers).flatMap (fun l =>
    [(l, 2, 4 * d), (l, 3, weightLen h d (imQ h)), (l, 4, weightLen h d (imR h)), (l, 5, weightLen h d (imR h)),
     (l, 6, weightLen h (imQ h) d), (l, 7, 4 * d)] ++ (if h.gated then [(l, 8, weightLen h d h.ffn)] else [])
      ++ [(l, 9, weightLen h d h.ffn), (l, 10, weightLen h h.ffn d)])
    ++ [(0xFFFE, 11, 4 * d), (0xFFFE, 12, weightLen h d h.vocab)]

/-- A directory entry: LAYER, KIND, OFFSET, LENGTH (R340). -/
def imEntry (b : List Byte) (h : ImHdr) (i : Nat) : Nat × Nat × Nat × Nat :=
  let o := h.tensorOff + 32 * i
  (leAt b o 2, leAt b (o + 2) 2, leAt b (o + 8) 8, leAt b (o + 16) 8)

/-- Image offset of a tensor. -/
def tensorAt (b : List Byte) (h : ImHdr) (layer kind : Nat) : Nat :=
  (((List.range h.tensors).map (imEntry b h)).find? (fun e => e.1 == layer && e.2.1 == kind)).elim 0 (fun e => e.2.2.1)

/-- The byte string of token v, and whether it is special (R340). -/
def tokenBytes (b : List Byte) (h : ImHdr) (v : Nat) : List Byte × Bool :=
  let e := leAt b (h.vocabOff + 8 * v) 8
  (slice b (h.vocabOff + 8 * h.vocab + fld e 31 0) (fld e 39 32), e.testBit 63)

/-- The vectors of an FP32 tensor. -/
def normOf (b : List Byte) (h : ImHdr) (layer kind : Nat) : List Nat :=
  (List.range h.dModel).map (fun i => leAt b (tensorAt b h layer kind + 4 * i) 4)

/-- Block j of column n of a weight tensor of K rows at an offset: scale and elements (R176, R177, R341). -/
def weightBlock (b : List Byte) (h : ImHdr) (off k n j : Nat) : Nat × List Nat :=
  let o := off + n * colLen h k
  let B := imBlock h
  let elem := fun i => if imBits h = 4 then leAt b (o + i / 2) 1 / 16 ^ (i % 2) % 16 else leAt b (o + i) 1
  (leAt b (o + k * imBits h / 8 + j) 1, (List.range B).map (fun i => elem (B * j + i)))

/-- The blocks of a column. -/
def weightCol (b : List Byte) (h : ImHdr) (off k n : Nat) : List (Nat × List Nat) :=
  (List.range (k / imBlock h)).map (weightBlock b h off k n)

/-- One output of a product: passes of Kp rows, each a carry over its bands and an exit that saturates (R184, R186, R341);
the column's blocks hold scales first. -/
def mxColumn (h : ImHdr) (a w : List (Nat × List Nat)) : Nat :=
  let f := imFmt h
  let bands := (a.zip w).map (fun p => mxBand f f (p.1.2.zip p.2.2) p.1.1 p.2.1)
  let per := (if h.wfmt = 2 then 64 else 128) / imBlock h
  (List.range (ceilDiv bands.length per)).foldl (fun acc i =>
    (mxExitFp fp32 (((bands.drop (per * i)).take per).foldl (mxAdd (mxCarry 0)) mxZero) acc true false none).1) 0

/-- A product of an activation with a weight tensor of K × N (R341): the activation's blocks are written by R192. -/
def rtProduct (b : List Byte) (h : ImHdr) (layer kind n : Nat) (x : List Nat) : List Nat :=
  let B := imBlock h
  let a := (List.range (x.length / B)).map (fun j => quantBlock (imFmt h) ((x.drop (B * j)).take B))
  let off := tensorAt b h layer kind
  (List.range n).map (fun c => mxColumn h a (weightCol b h off x.length c))

/-! The forward pass (R341) -/

/-- rms(x) ⊙ a norm tensor. -/
def rmsNorm (b : List Byte) (h : ImHdr) (layer kind : Nat) (x : List Nat) : List Nat :=
  let r := u32sqrt (u32add (u32div (u32sum (x.map (fun v => u32mul v v))) (u32nat h.dModel)) h.normEps)
  ((x.map (fun v => u32div v r)).zip (normOf b h layer kind)).map (fun p => u32mul p.1 p.2)

/-- ROPE_BASE^(2i ÷ HEAD_DIM) in fixed point: the root of the base, raised to i (R341). -/
def ropePower (h : ImHdr) (i : Nat) : Nat :=
  match fDecode fp32 h.ropeBase with
  | .num _ m le =>
    let root := (List.range (if h.headDim = 64 then 5 else 6)).foldl (fun v _ => isqrt (v * 2 ^ fixP)) (toFix m le)
    (List.range i).foldl (fun v _ => v * root / 2 ^ fixP) (2 ^ fixP)
  | _ => 2 ^ fixP

/-- Cosine and sine, in fixed point, of a fixed-point angle below 2π, by their series. -/
def cosSin (x : Nat) : Int × Int :=
  let s := (List.range 180).foldl (fun (a : Int × Int × Nat) n =>
    let t : Int := if n / 2 % 2 = 0 then (a.2.2 : Int) else -(a.2.2 : Int)
    let next := a.2.2 * x / 2 ^ fixP / (n + 1)
    if n % 2 = 0 then (a.1 + t, a.2.1, next) else (a.1, a.2.1 + t, next)) ((0 : Int), (0 : Int), 2 ^ fixP)
  (s.1, s.2.1)

/-- Cosine and sine of the rotation of pair i of a head at a position, by the angle pos × ROPE_BASE^(−2i ÷ HEAD_DIM): the
FP32 value on one side of each (R341; assumption 98). -/
def rotary (h : ImHdr) (pos i : Nat) : Nat × Nat :=
  let v := cosSin (pos * 2 ^ (2 * fixP) / ropePower h i % (2 * piFix))
  let up := Config.rotaryUp pos h.ropeBase i h.headDim
  let side := fun (u : Bool) (x : Int) => (fRound fp32 (if u then 7 else 6) (decide (x < 0)) x.natAbs (-(fixP : Int))).1
  (side up.1 v.1, side up.2 v.2)

/-- The pairs of one head rotated by their angles. -/
def rotate (h : ImHdr) (pos : Nat) (q : List Nat) : List Nat :=
  (List.range (h.headDim / 2)).flatMap (fun i =>
    let (c, s) := rotary h pos i
    let a := q.getD (2 * i) 0
    let b := q.getD (2 * i + 1) 0
    [u32sub (u32mul a c) (u32mul b s), u32add (u32mul a s) (u32mul b c)])

/-- Head j of a vector of heads. -/
def headOf (h : ImHdr) (x : List Nat) (j : Nat) : List Nat := (x.drop (h.headDim * j)).take h.headDim

/-- A value as the KV page holds it (R341). -/
def kvStore (h : ImHdr) (v : Nat) : Nat :=
  if h.kvfmt = 1 then (match fDecode fp32 v with
    | .nan _ => fQnan bf16
    | .inf neg => fInf bf16 neg
    | .num neg m le => (fRound bf16 0 neg m le).1)
  else match fDecode fp32 (u32div v h.kvScale) with
    | .nan _ => 0x7F
    | .inf neg => fMax fp8e4m3 neg
    | .num neg m le =>
      let r := fRound fp8e4m3 0 neg m le
      if r.2 &&& flOV ≠ 0 then fMax fp8e4m3 neg else r.1

/-- A stored value as it is read. -/
def kvLoad (h : ImHdr) (v : Nat) : Nat :=
  if h.kvfmt = 1 then v * 65536 else u32mul (scaledFp8 fp8e4m3 v 127) h.kvScale

/-- The output of query head j over the stored positions. -/
def attend (h : ImHdr) (q : List Nat) (kv : List (List Nat × List Nat)) (j : Nat) : List Nat :=
  let g := j / (h.heads / h.kvHeads)
  let ks := kv.map (fun p => (headOf h p.1 g).map (kvLoad h))
  let vs := kv.map (fun p => (headOf h p.2 g).map (kvLoad h))
  let sc := ks.map (fun k => u32div (u32dot (headOf h q j) k) (u32sqrt (u32nat h.headDim)))
  let m := sc.foldl u32max (fInf fp32 true)
  let e := sc.map (fun s => expRn (u32sub s m))
  let w := e.map (fun x => u32div x (u32sum e))
  (List.range h.headDim).map (fun i => u32dot w (vs.map (fun v => v.getD i 0)))

/-- silu and gelu (R341). -/
def silu (a : Nat) : Nat := u32div a (u32add u32one (expRn (fNeg fp32 a)))
def gelu (a : Nat) : Nat :=
  u32div (u32mul a (u32add u32one (erfRn (u32div a (u32sqrt (u32nat 2)))))) (u32nat 2)

/-- One layer on x at a position, with the layer's KV before; x and the KV after. -/
def rtLayer (b : List Byte) (h : ImHdr) (pos l : Nat) (x : List Nat) (kv : List (List Nat × List Nat)) :
    List Nat × List (List Nat × List Nat) :=
  let n := rmsNorm b h l 2 x
  let rot := fun (heads : Nat) (v : List Nat) => (List.range heads).flatMap (fun j => rotate h pos (headOf h v j))
  let q := rot h.heads (rtProduct b h l 3 (imQ h) n)
  let k := rot h.kvHeads (rtProduct b h l 4 (imR h) n)
  let v := rtProduct b h l 5 (imR h) n
  let kv := kv ++ [(k.map (kvStore h), v.map (kvStore h))]
  let add := fun (a c : List Nat) => (a.zip c).map (fun p => u32add p.1 p.2)
  let x := add x (rtProduct b h l 6 h.dModel ((List.range h.heads).flatMap (attend h q kv)))
  let n := rmsNorm b h l 7 x
  let up := rtProduct b h l 9 h.ffn n
  let f := if h.gated then ((rtProduct b h l 8 h.ffn n).zip up).map (fun p => u32mul (silu p.1) p.2) else up.map gelu
  (add x (rtProduct b h l 10 h.dModel f), kv)

/-- Column t of EMBED, decoded (R289, R341). -/
def embed (b : List Byte) (h : ImHdr) (t : Nat) : List Nat :=
  (weightCol b h (tensorAt b h 0xFFFF 1) h.dModel t).flatMap (fun c => c.2.map (fun e => scaledFp8 (imFmt h) e c.1))

/-- One token at a position through every layer: x and the KV after. -/
def rtToken (b : List Byte) (h : ImHdr) (pos t : Nat) (kv : List (List (List Nat × List Nat))) :
    List Nat × List (List (List Nat × List Nat)) :=
  (List.range h.layers).foldl (fun (a : List Nat × List (List (List Nat × List Nat))) l =>
    let r := rtLayer b h pos l a.1 (kv.getD l [])
    (r.1, a.2 ++ [r.2])) (embed b h t, [])

/-- The logits of R350. -/
def logits (b : List Byte) (h : ImHdr) (x : List Nat) : List Nat :=
  rtProduct b h 0xFFFE 12 h.vocab (rmsNorm b h 0xFFFE 11 x)

/-! Sampling (R350) -/

/-- `mix64`. -/
def mix64 (x : Nat) : Nat :=
  let x := x ^^^ (x >>> 30)
  let x := x * 0xBF58476D1CE4E5B9 % 2 ^ 64
  let x := x ^^^ (x >>> 27)
  let x := x * 0x94D049BB133111EB % 2 ^ 64
  x ^^^ (x >>> 31)

/-- Insert an index into a list in descending order of value, after those of equal value. -/
def insDesc (z : Nat → Nat) (i : Nat) : List Nat → List Nat
  | [] => [i]
  | j :: r => if u32lt (z j) (z i) then i :: j :: r else j :: insDesc z i r

/-- `order_desc`: the indexes in descending order, ties by lower index. -/
def orderDesc (z : List Nat) : List Nat :=
  (List.range z.length).foldl (fun l i => insDesc (fun k => z.getD k 0) i l) []

/-- The number of leading weights whose running sum first passes a test; the whole count if none does. -/
def firstSum (p : Nat → Bool) (w : List Nat) : Option Nat :=
  (w.foldl (fun (a : Nat × Nat × Option Nat) x =>
    let acc := u32add a.1 x
    (acc, a.2.1 + 1, match a.2.2 with | some r => some r | none => if p acc then some a.2.1 else none)) (0, 0, none)).2.2

/-- `sample`: output token n of a request with its logits; none is the failure of NUMERIC. -/
def sampleToken (q : Req) (z : List Nat) (n : Nat) : Option Nat :=
  let m := z.foldl u32max (fInf fp32 true)
  if anyNan [fDecode fp32 m] ∨ m = fInf fp32 true then none
  else if u32eq q.temp 0 then z.findIdx? (fun v => u32eq v m)
  else
    let idx := orderDesc z
    let c := if q.topK = 0 ∨ q.topK > z.length then z.length else q.topK
    let w := (idx.take c).map (fun i => expRn (u32div (u32sub (z.getD i 0) m) q.temp))
    let lim := u32mul q.topP (u32sum w)
    let r := ((firstSum (fun a => u32ge a lim) w).map (· + 1)).getD c
    let tr := u32sum (w.take r)
    let g := mix64 ((q.seed + n * 0x9E3779B97F4A7C15) % 2 ^ 64) >>> 40
    let u := u32mul (u32mul (u32nat g) 0x33800000) tr
    idx[((firstSum (fun a => u32lt u a) (w.take r)).getD (r - 1))]?

end Machine
end Sys2Proof
end

