-- ==== Sys2Proof/Machine/RtCopy.lean ====
section
/-!
DEFINITION. A model in module memory: the checks of its image (R340 to R342), the place of its copies and pages (R342), the
weight tiles written there (R205, R206), and the accesses of the runtime to them (R347).
-/

namespace Sys2Proof
namespace Machine

/-! The checks of an image (R340 to R342) -/

/-- The header obeys Table 1 and R10. -/
def headerOk (b : List Byte) (n : Nat) : Bool :=
  let h := imHdr b
  let pos := fun (v : Nat) => u32fin v && u32lt 0 v
  decide (n ≥ 128) && leAt b 0 4 == 0x444D584C && leAt b 4 2 == 1
    && decide (1 ≤ h.layers ∧ h.layers ≤ 256 ∧ 0 < h.dModel ∧ h.dModel % 64 = 0 ∧ h.dModel ≤ 16384)
    && decide (1 ≤ h.heads ∧ h.heads ≤ 256 ∧ 0 < h.kvHeads ∧ h.heads % h.kvHeads = 0)
    && (h.headDim == 64 || h.headDim == 128) && decide (0 < h.ffn ∧ h.ffn % 64 = 0)
    && decide (256 ≤ h.vocab ∧ h.vocab ≤ 262144 ∧ 0 < h.ctxMax ∧ h.ctxMax % 16 = 0 ∧ h.ctxMax ≤ 65536 ∧ h.eos < h.vocab)
    && decide (h.wfmt ≤ 2 ∧ h.kvfmt ≤ 1 ∧ leAt b 0x22 1 < 4 ∧ leAt b 0x23 1 = 0 ∧ 1 ≤ h.tensors)
    && pos h.kvScale && u32fin h.ropeBase && u32lt u32one h.ropeBase && pos h.normEps
    && leAt b 0x40 8 == n && (List.range 52).all (fun i => leAt b (0x4C + i) 1 == 0)

/-- The tensor directory obeys R341 and lies with its tensors inside the image. -/
def directoryOk (b : List Byte) (n : Nat) : Bool :=
  let h := imHdr b
  let es := (List.range h.tensors).map (imEntry b h)
  let need := imTensors h
  decide (h.tensorOff + 32 * h.tensors ≤ n)
    && (List.range h.tensors).all (fun i => leAt b (h.tensorOff + 32 * i + 4) 4 == 0 && leAt b (h.tensorOff + 32 * i + 24) 8 == 0)
    && es.all (fun e => need.contains (e.1, e.2.1, e.2.2.2) && decide (e.2.2.1 + e.2.2.2 ≤ n))
    && need.all (fun t => (es.filter (fun e => e.1 == t.1 && e.2.1 == t.2.1)).length == 1)

/-- The vocabulary lies inside the image, and with TOKENISE every byte is the whole string of some token (R342 step 1). -/
def vocabOk (b : List Byte) (n : Nat) : Bool :=
  let h := imHdr b
  decide (h.vocabOff + 8 * h.vocab ≤ n)
    && (List.range h.vocab).all (fun v =>
      let e := leAt b (h.vocabOff + 8 * v) 8
      fld e 62 40 == 0 && decide (h.vocabOff + 8 * h.vocab + fld e 31 0 + fld e 39 32 ≤ n))
    && (!h.tokenise || (List.range 256).all (fun x => (List.range h.vocab).any (fun v => (tokenBytes b h v).1 == [BitVec.ofNat 8 x])))

/-- Bytes of the vocabulary table with its pool. -/
def vocabLen (b : List Byte) (h : ImHdr) : Nat :=
  8 * h.vocab + (List.range h.vocab).foldl (fun m v =>
    let e := leAt b (h.vocabOff + 8 * v) 8
    max m (fld e 31 0 + fld e 39 32)) 0

/-! Space (R342 steps 2 to 4) -/

/-- Shard j of n takes the tensors of a LAYER: its layers, the embedding on the first, the output projection on the last
(R342 step 2). -/
def shardTakes (h : ImHdr) (j n l : Nat) : Bool :=
  if l = 0xFFFF then j == 0 else if l = 0xFFFE then j + 1 == n
  else decide (j * h.layers / n ≤ l) && decide (l < (j + 1) * h.layers / n)

/-- K and N of a weight tensor (14 Table 9); none for an FP32 tensor. -/
def weightDims (h : ImHdr) (kind : Nat) : Option (Nat × Nat) :=
  let d := h.dModel
  match kind with
  | 1 | 12 => some (d, h.vocab)
  | 3 => some (d, imQ h)
  | 4 | 5 => some (d, imR h)
  | 6 => some (imQ h, d)
  | 8 | 9 => some (d, h.ffn)
  | 10 => some (h.ffn, d)
  | _ => none

/-- Reduction rows of a weight tile (08 Table 1). -/
def imKp (h : ImHdr) : Nat := if h.wfmt = 2 then 64 else 128

/-- Tiles of a weight tensor, scales of a tile, bytes of a tile. -/
def imTiles (h : ImHdr) (k n : Nat) : Nat := ceilDiv k (imKp h) * ceilDiv n 32
def imNb (h : ImHdr) : Nat := imKp h / imBlock h
def imWt (h : ImHdr) : Nat := imKp h * 32 * imBits h / 8

/-- Bytes of a tensor as the runtime keeps it. -/
def keptLen (h : ImHdr) (t : Nat × Nat × Nat) : Nat :=
  match weightDims h t.2.1 with
  | some (k, n) => imTiles h k n * (imWt h + 32 * imNb h)
  | none => t.2.2

/-- Bytes of the copy of shard j of n. -/
def shardLen (b : List Byte) (h : ImHdr) (j n : Nat) : Nat :=
  (imTensors h).foldl (fun a t => if shardTakes h j n t.1 then a + keptLen h t else a) 0 + (if j + 1 = n then vocabLen b h else 0)

/-- Bytes of a page on each of n shards (R342 step 4). -/
def pageLen (h : ImHdr) (n : Nat) : Nat := ceilDiv (16 * kvBytes h) n

/-- The regions of a constellation homed on one die alone (R342 step 3). -/
def dieRegions (s : State) (k : Constel) (d : Nat) : List Nat :=
  match s.chart with
  | none => []
  | some c => (bitsOf 1024 k.regions).filter (fun r => (interleave c r).1 == 2 ^ d)

/-- Insert a range in ascending order. -/
def insSpan (e : Nat × Nat) : List (Nat × Nat) → List (Nat × Nat)
  | [] => [e]
  | f :: r => if e.1 < f.1 then e :: f :: r else f :: insSpan e r

/-- The free ranges from p up to n beside some ranges in ascending order. -/
def gapsFrom : Nat → Nat → List (Nat × Nat) → List (Nat × Nat)
  | p, n, [] => if p < n then [(p, n - p)] else []
  | p, n, (a, l) :: r => (if p < a then [(p, a - p)] else []) ++ gapsFrom (max p (a + l)) n r

/-- The first n bytes of some ranges; none where they hold fewer. -/
def takeGaps (n : Nat) : List (Nat × Nat) → Option (List (Nat × Nat))
  | [] => if n = 0 then some [] else none
  | (a, l) :: r => if n ≤ l then some [(a, n)] else (takeGaps (n - l) r).map ((a, l) :: ·)

/-- The free ranges of a constellation's space on a die beside some parts. -/
def freeSpace (const die regions : Nat) (taken : List ShardPart) : List (Nat × Nat) :=
  gapsFrom 0 (regions * 2 ^ 30) (((taken.filter (fun p => p.const == const && p.die == die)).flatMap (·.extents)).foldl
    (fun l e => insSpan e l) [])

/-- The parts of a copy on an instance, beside the parts taken; none where a die lacks the space, which gives NO_SPACE
(R342). -/
def copySpace (s : State) (b : List Byte) (kvPages : Nat) (taken : List ShardPart) (id inst : Nat) : Option (List ShardPart) :=
  match constById s id, copyOf s id inst with
  | some k, some i =>
    let h := imHdr b
    let n := i.shards.length
    i.shards.zipIdx.foldl (fun (acc : Option (List ShardPart)) xj => acc.bind (fun ps =>
      let rs := dieRegions s k xj.1.die
      let len := shardLen b h xj.2 n
      (takeGaps (len + kvPages * pageLen h n) (freeSpace id xj.1.die rs.length (taken ++ ps))).map (fun ex =>
        ps ++ [{ const := id, die := xj.1.die, regions := rs, extents := ex, copyLen := len
                 gens := rs.map (fun r => (r, stGen s.mem (r * 2 ^ 30))) }]))) (some [])
  | _, _ => none

/-! Addresses (R342 step 3, R347) -/

/-- The stripe of the runtime's copies on a die. -/
def stripeUnit (p : ShardPart) : Nat := 2 ^ (12 + Config.copyStripe p.const p.die % 19)

/-- The module address of a stripe: the stripes run across the regions of the die in the order of their numbers
(R342 step 3). -/
def unitAddr (p : ShardPart) (q : Nat) : Nat :=
  let n := p.regions.length
  let i := (q + Config.copyStart p.const p.die) % (n * (2 ^ 30 / stripeUnit p))
  p.regions.getD (i % n) 0 * 2 ^ 30 + i / n * stripeUnit p

/-- Module addresses, as (address, length), of n bytes of the space at a position. -/
def unitSpans (p : ShardPart) (a n : Nat) : List (Nat × Nat) :=
  let u := stripeUnit p
  if n = 0 then []
  else (List.range ((a + n - 1) / u + 1 - a / u)).map (fun i =>
    let lo := max a ((a / u + i) * u)
    (unitAddr p (a / u + i) + lo % u, min (a + n) ((a / u + i + 1) * u) - lo))

/-- Module addresses of n bytes of a part from byte lo on. -/
def partSpans (p : ShardPart) (lo n : Nat) : List (Nat × Nat) :=
  (p.extents.foldl (fun (a : Nat × List (Nat × Nat)) e =>
    let f := max lo a.1
    let l := min (lo + n) (a.1 + e.2)
    (a.1 + e.2, if f < l then a.2 ++ unitSpans p (e.1 + (f - a.1)) (l - f) else a.2)) (0, [])).2

/-! Accesses (R347) -/

/-- Accesses that one command makes over its time: each waits for its tokens as they come (R248), so that no bucket is too
small for them and each is left as it was; the runtime's own data is its commands' alone (assumption 95). -/
def overTime (f : State → State) (s : State) : State :=
  let deep := 2 ^ 64
  let r := f { s with cdies := s.cdies.map (fun (p : Nat × CDieSt) => (p.1, { p.2 with tokens := deep })) }
  { r with rt := s.rt, cdies := r.cdies.map (fun (p : Nat × CDieSt) => (p.1, { p.2 with tokens := (getD s p.1).tokens })) }

/-- A tile of the runtime reads some bytes with a hint. -/
def rtRead (t hint : Nat) (s : State) (sp : Nat × Nat) : State :=
  match cohReadFrom s (t / 64) sp.1 sp.2 hint true [] with
  | some r => countSectors r.s t sp.1 sp.2
  | none => s

/-- A tile of the runtime writes bytes over some places in order with a hint. -/
def rtWrite (t hint : Nat) (s : State) (sps : List (Nat × Nat)) (bs : List Byte) : State :=
  (sps.foldl (fun (a : State × List Byte) sp =>
    (match cohWriteBFrom a.1 (t / 64) sp.1 (a.2.take sp.2) hint [] with
      | some r => countSectors r.2 t sp.1 sp.2
      | none => a.1, a.2.drop sp.2)) (s, bs)).1

/-! The copy written (R342 step 3) -/

/-- The elements of a weight tile packed (R176). -/
def packElems (h : ImHdr) (es : List Nat) : List Byte :=
  if imBits h = 4 then (List.range (es.length / 2)).map (fun i => BitVec.ofNat 8 (es.getD (2 * i) 0 + 16 * es.getD (2 * i + 1) 0))
  else es.map (BitVec.ofNat 8)

/-- A weight tensor of K × N at an image offset as weight tiles, the k-blocks of each block of 32 columns in turn, then their
scales (R205, R206); places beyond K and N take no part in any result, and their values are free (draw g). -/
def weightTiles (b : List Byte) (h : ImHdr) (off k n g : Nat) : List Byte :=
  let kp := imKp h
  let pk := ceilDiv k kp
  let pad := fun (i : Nat) => (Config.unwritten g i).toNat
  let elem := fun (r c : Nat) =>
    let o := off + c * colLen h k
    if r < k ∧ c < n then (if imBits h = 4 then leAt b (o + r / 2) 1 / 16 ^ (r % 2) % 16 else leAt b (o + r) 1)
    else pad (r * (n + 32) + c) % 2 ^ imBits h
  let scale := fun (j c : Nat) =>
    if j < k / imBlock h ∧ c < n then BitVec.ofNat 8 (leAt b (off + c * colLen h k + k * imBits h / 8 + j) 1)
    else BitVec.ofNat 8 (pad (j * (n + 32) + c))
  let passes := List.range (imTiles h k n)
  passes.flatMap (fun p => packElems h ((List.range (kp * 32)).map (fun i => elem (p % pk * kp + i / 32) (p / pk * 32 + i % 32))))
    ++ passes.flatMap (fun p => (List.range (32 * imNb h)).map (fun i => scale (p % pk * imNb h + i / 32) (p / pk * 32 + i % 32)))

/-- The bytes of the copy of shard j of n: its tensors in the order of Table 9, and the vocabulary on the last. -/
def shardCopy (b : List Byte) (h : ImHdr) (j n g : Nat) : List Byte :=
  ((imTensors h).filter (fun t => shardTakes h j n t.1)).flatMap (fun t =>
    let off := tensorAt b h t.1 t.2.1
    match weightDims h t.2.1 with
    | some (k, m) => weightTiles b h off k m g
    | none => slice b off t.2.2)
  ++ (if j + 1 = n then slice b h.vocabOff (vocabLen b h) else [])

/-- Tile t writes a copy of a model to its place. -/
def writeCopy (t : Nat) (b : List Byte) (ps : List ShardPart) (s : State) : State :=
  let s := { s with draws := s.draws + 1 }
  ps.zipIdx.foldl (fun s pj =>
    rtWrite t 0 s (partSpans pj.1 0 pj.1.copyLen) (shardCopy b (imHdr b) pj.2 ps.length (s.draws - 1))) s

/-! Pages (R346, R347) -/

/-- Pages a request reserves (R346). -/
def reqPages (prompt maxTokens : Nat) : Nat := ceilDiv (prompt + maxTokens) 16

/-- Bytes of the keys and values of one position on shard j of n, as its page holds them: layer by layer, keys then
values. -/
def kvBytesAt (h : ImHdr) (q : Req) (j n pos : Nat) : List Byte :=
  let z := if h.kvfmt = 0 then 1 else 2
  ((List.range h.layers).filter (shardTakes h j n)).flatMap (fun l =>
    let kv := (q.kv.getD l []).getD pos ([], [])
    (kv.1 ++ kv.2).flatMap (toLE z))

/-- The places of m positions of a sequence from position pos on, in its pages on shard j (R347). -/
def kvSpans (h : ImHdr) (n : Nat) (p : ShardPart) (table : List (BitVec 32)) (pos m : Nat) : List (Nat × Nat) :=
  let len := pageLen h n
  (List.range m).flatMap (fun i =>
    partSpans p (p.copyLen + (table.getD ((pos + i) / 16) 0).toNat * len + (pos + i) % 16 * (len / 16)) (len / 16))

/-- Pages of a copy that no request holds, lowest first (R346). -/
def freePages (kvPages : Nat) (held : List (BitVec 32)) : List (BitVec 32) :=
  ((List.range kvPages).map (BitVec.ofNat 32)).filter (fun i => !held.contains i)

/-- What a half-step does for one sequence: its request after the work, the first position and the number of positions. -/
structure SeqWork where
  q : Req
  pos : Nat
  n : Nat

/-- The accesses of tile t to shard j of n in a half-step: activation scratch written and last read with hint 11, in space that
no copy takes; the weights read once with hint 01; the pages of each sequence read, and the new positions written, with hint 00
(R347). -/
def shardStep (h : ImHdr) (taken : List ShardPart) (n t : Nat) (ws : List SeqWork) (pj : ShardPart × Nat) (s : State) : State :=
  let p := pj.1
  let tokens := ws.foldl (fun m w => m + w.n) 0
  let scratch := ((takeGaps (4 * h.dModel * tokens) (freeSpace p.const p.die p.regions.length taken)).getD []).flatMap (fun e =>
    unitSpans p e.1 e.2)
  let free := (List.range (4 * h.dModel * tokens)).map (Config.unwritten s.draws)
  let s := rtWrite t 3 { s with draws := s.draws + 1 } scratch free
  let s := (partSpans p 0 p.copyLen).foldl (rtRead t 1) s
  let s := ws.foldl (fun s w =>
    let table := w.q.pages.getD pj.2 []
    let s := (kvSpans h n p table 0 w.pos).foldl (rtRead t 0) s
    (List.range w.n).foldl (fun s i => rtWrite t 0 s (kvSpans h n p table (w.pos + i) 1) (kvBytesAt h w.q pj.2 n (w.pos + i))) s) s
  scratch.foldl (rtRead t 3) s

end Machine
end Sys2Proof
end

