-- ==== Sys2Proof/Machine/Runtime.lean ====
section
/-!
DEFINITION. The service runtime: launch (R339), deliveries and their checks (R342 to R345), models and admission (R346).
-/

namespace Sys2Proof
namespace Machine

/-- The state with the runtime changed. -/
def modRt (s : State) (f : RtSt → RtSt) : State := { s with rt := f s.rt }

/-- RUNTIME_LAUNCH: the verified runtime image is launched on every constellation that is SERVING, where its tasks do not run
yet (R339, R384). -/
def execRuntimeLaunch (s : State) : Host.Outcome State Fault Refusal :=
  .next (
    match s.chart with
    | none => s
    | some c =>
      if !lsAlive s ∨ !s.su.rtOk ∨ s.pw.mstate = 2 ∨ scanOpen s then s
      else setCoords ((c.consts.filter (fun k => k.flags.testBit 0)).foldl placeTasks s))

/-! Models and requests -/

/-- A registered model. -/
def getModel (s : State) (const num : Nat) : Option Model := s.rt.models.find? (fun m => m.const == const && m.num == num)

/-- The constellation and instance of a copy of a model. -/
def copyPlace (m : Model) (moved : Bool) : Option (Nat × Nat) := if moved then m.standby else some (m.const, m.inst)

/-- The parts of a copy of a model. -/
def copyParts (m : Model) (moved : Bool) : List ShardPart := if moved then m.sbParts else m.parts

/-- Some region of a die that a copy lies on has become unpredictable since the copy was made (R359). -/
def regionsLost (s : State) (m : Model) (moved : Bool) : Bool :=
  (copyParts m moved).any (fun p => p.gens.any (fun e => stGen s.mem (e.1 * 2 ^ 30) != e.2))

/-- A copy of a model serves: it is whole, its instance serves and its constellation's coordinator runs. A model that has been
unregistered has its standby copy alone (R59, R359). -/
def modelServes (s : State) (m : Model) (moved : Bool) : Bool :=
  match copyPlace m moved with
  | some (c, i) => copyServes s c i && rtOn s c && !regionsLost s m moved && (moved || decide (m.num < 1024))
  | none => false

/-- A request belongs to a model. -/
def reqOf (const model : Nat) (q : Req) : Bool := q.const == const && q.model == model

/-! Deliveries (R331, R344) -/

/-- The queue of the oldest delivery to a constellation's coordinator that it has not taken (R344). -/
def oldestDelivery (s : State) (k : Constel) : Option Nat :=
  (s.qf.deliveries.find? (fun e => ((queueConst s e.1).map (·.id)) == some k.id && untaken s e.1 e.2)).map (·.1)

/-- The delivery that the coordinator of a queue takes next, where it is one of that queue: the constellation and the 256 bytes
in the delivery ring; bytes that cannot be read are zeros. -/
def delivery (s : State) (q : Nat) : Option (Constel × List Byte) :=
  let x := getQ s q
  match queueConst s q with
  | none => none
  | some k =>
    if !rtOn s k.id ∨ oldestDelivery s k ≠ some q ∨ (s.rt.reqs.filter (fun r => r.const == k.id)).length ≥ 8192 then none
    else
      match cohRead s (wfld x.dlv 47 8 * 256 + 256 * (x.cons % 2 ^ (wfld x.dlv 3 0 + 4))) 256 0 false [] with
      | some r => some (k, if r.st = 0 ∧ !(r.pois.any id) then r.bytes else List.replicate 256 0#8)
      | none => some (k, List.replicate 256 0#8)

/-- The coordinator advances QF_CONS and completes the delivery with a status (R331, R344). -/
def takeDelivery (s : State) (q status : Nat) : State :=
  let x := getQ s q
  let s := setQ s q { x with cons := (x.cons + 1) % 2 ^ 32 }
  match s.qf.descs.find? (fun d => d.q == q && d.phase == .started && d.delivered == some x.cons) with
  | some d => endDesc s q d.idx status []
  | none => s

/-- The first status of a list that applies; 0 ACCEPTED (14 Table 3). -/
def firstStatus (l : List (Bool × Nat)) : Nat := ((l.find? (·.1)).map (·.2)).getD 0

/-- Bytes of a SERVICE body that its OP leaves unassigned are zero: `used` lists (offset, length) (R10, R343). -/
def restZero (b : List Byte) (used : List (Nat × Nat)) : Bool :=
  (List.range 224).all (fun i =>
    let o := 0x20 + i
    used.any (fun u => u.1 ≤ o && o < u.1 + u.2) || b.getD o 0#8 == 0#8)

/-! Tokenising (R345) -/

/-- The token taken at the head of some bytes: the longest match, ties to the lowest ID, special tokens never. -/
def longestToken (im : List Byte) (h : ImHdr) (p : List Byte) : Option (Nat × Nat) :=
  (List.range h.vocab).foldl (fun (best : Option (Nat × Nat)) v =>
    let t := tokenBytes im h v
    let n := t.1.length
    if t.2 ∨ n = 0 ∨ p.take n ≠ t.1 then best
    else match best with
      | some (_, m) => if n > m then some (v, n) else best
      | none => some (v, n)) none

/-- The tokens of a byte list; `fuel` bounds their number. A byte at which no token matches gives a token that the spec leaves
open (assumption 97). -/
def tokenise (im : List Byte) (h : ImHdr) : Nat → List Byte → List Nat
  | 0, _ => []
  | _ + 1, [] => []
  | fuel + 1, b :: p =>
    match longestToken im h (b :: p) with
    | some (v, n) => v :: tokenise im h fuel ((b :: p).drop n)
    | none => Config.strayToken b % h.vocab :: tokenise im h fuel p

/-! GENERATE (R343, R344) -/

/-- The prompt's bytes of a GENERATE of constellation k: none where it lies outside the constellation's regions or cannot
be read; waiting is told apart. -/
def promptBytes (s : State) (k : Constel) (b : List Byte) (errs : List SymErr) : Option (Option (List Byte) × State) :=
  let n := leAt b 0x40 4 * (if leAt b 0x21 1 = 1 then 4 else 1)
  let a := leAt b 0x48 8
  if a = 0 then some (some (slice b 0x50 (min n 176)), s)
  else if n = 0 ∨ a + n > 2 ^ 40 ∨ ((spanOwner s a n).map (·.id)) ≠ some k.id then some (none, s)
  else (cohRead s a n 0 false errs).map (fun r => (if r.st = 0 ∧ !(r.pois.any id) then some r.bytes else none, r.s))

/-- TEMPERATURE, TOP_P and the other fields obey Table 2. -/
def genFieldsOk (b : List Byte) : Bool :=
  let t := leAt b 0x30 4
  let p := leAt b 0x34 4
  decide (leAt b 0x21 1 ≤ 1) && decide (leAt b 0x26 2 ≤ 1) && decide (leAt b 0x22 2 ≤ 1023)
    && u32fin t && u32ge t 0 && u32fin p && u32lt 0 p && u32ge u32one p
    && decide (1 ≤ leAt b 0x3C 4 ∧ leAt b 0x3C 4 ≤ 65536) && decide (leAt b 0x40 4 ≥ 1)
    && restZero b [(0x20, 4), (0x24, 32), (0x48, 184)]

/-- The status of a GENERATE and the prompt's tokens (14 Table 3). -/
def genStatus (s : State) (k : Constel) (b : List Byte) (prompt : Option (List Byte)) : Nat × List Nat :=
  let model := leAt b 0x22 2
  let pform := leAt b 0x21 1
  let m := getModel s k.id model
  let h := imHdr ((m.map (·.image)).getD [])
  let im := (m.map (·.image)).getD []
  let p := prompt.getD []
  let noTok := pform == 0 && !h.tokenise
  let toks := if pform = 1 then (List.range (leAt b 0x40 4)).map (fun i => leAt p (4 * i) 4)
    else if noTok then [] else tokenise im h p.length p
  let mx := leAt b 0x3C 4
  let inline := leAt b 0x48 8 == 0 && decide (leAt b 0x40 4 > (if pform = 1 then 44 else 176))
  let rq := leAt b 0x24 2
  let st := firstStatus
    [(leAt b 0x20 1 != 1 || !genFieldsOk b || prompt.isNone || (m.isSome && decide (leAt b 0x38 4 > h.vocab)), 0x80),
     (m.isNone, 0x81),
     (inline || (!noTok && (decide (toks.length + mx > h.ctxMax) || decide (reqPages toks.length mx > (m.map (·.kvPages)).getD 0))), 0x82),
     (noTok || (pform == 1 && toks.any (fun t => decide (t ≥ h.vocab))), 0x83),
     (!(m.any (fun m => modelServes s m false || modelServes s m true)), 0x87),
     (((queueConst s rq).map (·.id)) != some k.id || !rringEn s (queueRring s rq), 0x89)]
  (st, toks)

/-- The request of an accepted GENERATE; it goes to the standby copy while the original does not serve (R359). -/
def newReq (s : State) (k : Constel) (b : List Byte) (toks : List Nat) : Req :=
  let moved := match getModel s k.id (leAt b 0x22 2) with | some m => !modelServes s m false | none => false
  { id := s.rt.next
    const := k.id, model := leAt b 0x22 2, tag := leAt b 0x10 8, rqueue := leAt b 0x24 2, idsOut := (leAt b 0x26 2).testBit 0
    seed := leAt b 0x28 8, temp := leAt b 0x30 4, topP := leAt b 0x34 4, topK := leAt b 0x38 4, maxTokens := leAt b 0x3C 4
    prompt := toks, phase := .waiting, moved := moved, done := 0, toks := [], part := [], buf := [], chunk := 0
    cancel := false, at_ := s.now, first := none, last := 0, served := none, kv := [], pages := [], energy := 0 }

/-- SVC_GENERATE: the coordinator takes a GENERATE, or a delivery of unknown OP, and answers with its status; an accepted
one enters the request table (R344). -/
def execSvcGenerate (q : QueueId) (errs : List SymErr) (s : State) : Host.Outcome State Fault Refusal :=
  .next (
    match delivery s q.val with
    | none => s
    | some (k, b) =>
      let op := leAt b 0x20 1
      if op = 2 ∨ op = 3 ∨ op = 4 then s
      else
        match promptBytes s k b errs with
        | none => s
        | some (p, s1) =>
          let g := genStatus s1 k b p
          let s2 := takeDelivery s1 q.val g.1
          if g.1 = 0 then modRt s2 (fun r => { r with reqs := r.reqs ++ [newReq s1 k b g.2], next := r.next + 1 }) else s2)

/-- SVC_CANCEL: the coordinator takes a CANCEL; its target ends at the end of its next half-step (R344, R355). -/
def execSvcCancel (q : QueueId) (s : State) : Host.Outcome State Fault Refusal :=
  .next (
    match delivery s q.val with
    | none => s
    | some (k, b) =>
      if leAt b 0x20 1 ≠ 2 then s
      else
        let model := leAt b 0x22 2
        let hit := fun (r : Req) => reqOf k.id model r && r.tag == leAt b 0x28 8
        let st := firstStatus
          [(decide (model > 1023) || !restZero b [(0x20, 1), (0x22, 2), (0x28, 8)], 0x80), ((getModel s k.id model).isNone, 0x81),
           (!(s.rt.reqs.any hit), 0x88)]
        let s1 := takeDelivery s q.val st
        if st = 0 then modRt s1 (fun r => { r with reqs := r.reqs.map (fun x => if hit x then { x with cancel := true } else x) })
        else s1)

/-! REGISTER (R342) -/

/-- The image that a REGISTER names, in the regions of the constellation or of its fallbacks (R339, R342): no bytes where it
cannot be read, none where a fence answers (R360); waiting is told apart. -/
def imageBytes (s : State) (k : Constel) (b : List Byte) (errs : List SymErr) : Option (Option (List Byte) × State) :=
  let a := leAt b 0x28 8
  let n := leAt b 0x30 8
  let ids := k.id :: k.copies.map (·.fbConst)
  let owned := (List.range ((a + n - 1) / 2 ^ 30 + 1 - a / 2 ^ 30)).all (fun i =>
    ids.any (fun c => (constById s c).any (fun f => f.regions.testBit (a / 2 ^ 30 + i))))
  if n = 0 ∨ a + n > 2 ^ 40 ∨ !owned then some (some [], s)
  else (cohRead s a n 0 false errs).map (fun r =>
    (if r.st = 2 then none else some (if r.st = 0 ∧ !(r.pois.any id) then r.bytes else []), r.s))

/-- The standby place of a REGISTER: the fallback of the instance, whose constellation is SERVING; none where STANDBY is
set and there is no such place (R342 step 5). -/
def standbyPlace (s : State) (k : Constel) (b : List Byte) : Option (Option (Nat × Nat)) :=
  if !(leAt b 0x25 1).testBit 0 then some none
  else
    match copyOf s k.id (leAt b 0x24 1) with
    | none => none
    | some i =>
      if i.fbConst ≠ 0xFF ∧ (constById s i.fbConst).any (fun f => f.flags.testBit 0) then some (some (i.fbConst, i.fbCopy)) else none

/-- The status of a REGISTER and the model it makes (R342, R360, 14 Table 3). -/
def regResult (s : State) (k : Constel) (b : List Byte) (image : Option (List Byte)) : Nat × Option Model :=
  let im := image.getD []
  let inst := leAt b 0x24 1
  let num := leAt b 0x22 2
  let seqs := leAt b 0x26 2
  let pages := leAt b 0x38 4
  let n := leAt b 0x30 8
  let sb := standbyPlace s k b
  let taken := s.rt.models.flatMap (fun m => m.parts ++ m.sbParts)
  let own := copySpace s im pages taken k.id inst
  let also := match sb.getD none with
    | some (c, i) => copySpace s im pages (taken ++ own.getD []) c i
    | none => some []
  let st := firstStatus
    [(decide (num > 1023 ∨ leAt b 0x25 1 > 1 ∨ seqs % 2 ≠ 0 ∨ seqs < 2 ∨ seqs > 256 ∨ pages = 0)
        || !restZero b [(0x20, 1), (0x22, 4), (0x26, 2), (0x28, 20)], 0x80),
     ((copyOf s k.id inst).isNone || sb.isNone, 0x81),
     (image.isSome && (!headerOk im n || !directoryOk im n || !vocabOk im n), 0x84),
     (image.isSome && (own.isNone || also.isNone), 0x85),
     ((getModel s k.id num).isSome, 0x86),
     (image.isNone || !copyServes s k.id inst || (match sb.getD none with | some (c, i) => !copyServes s c i | none => false), 0x87)]
  (st, if st = 0 then
      some { const := k.id, num := num, inst := inst, maxSeq := seqs, kvPages := pages, image := im, parts := own.getD []
             sbParts := also.getD [], standby := sb.getD none }
    else none)

/-- SVC_REGISTER: the coordinator takes a REGISTER and writes the copies of an accepted one (R342). -/
def execSvcRegister (q : QueueId) (errs : List SymErr) (s : State) : Host.Outcome State Fault Refusal :=
  .next (
    match delivery s q.val with
    | none => s
    | some (k, b) =>
      if leAt b 0x20 1 ≠ 3 then s
      else
        match imageBytes s k b errs with
        | none => s
        | some (im, s1) =>
          let r := regResult s1 k b im
          match r.2 with
          | some m =>
            let t := ((coordTile s1 k).getD 0)
            let s2 := takeDelivery (overTime (fun s => writeCopy t m.image m.sbParts (writeCopy t m.image m.parts s)) s1) q.val r.1
            setCoords (modRt s2 (fun x => { x with models := x.models ++ [m] }))
          | none => takeDelivery s1 q.val r.1)

/-- Remove a model. -/
def dropModel (s : State) (const num : Nat) : State :=
  setCoords (modRt s (fun r => { r with models := r.models.filter (fun m => !(m.const == const && m.num == num)) }))

/-- SVC_UNREGISTER: the coordinator takes an UNREGISTER; a model with no request in the table is freed (R342). -/
def execSvcUnregister (q : QueueId) (s : State) : Host.Outcome State Fault Refusal :=
  .next (
    match delivery s q.val with
    | none => s
    | some (k, b) =>
      if leAt b 0x20 1 ≠ 4 then s
      else
        let num := leAt b 0x22 2
        let st := firstStatus
          [(decide (num > 1023) || !restZero b [(0x20, 1), (0x22, 2)], 0x80), ((getModel s k.id num).isNone, 0x81),
           (s.rt.reqs.any (reqOf k.id num), 0x86)]
        let s1 := takeDelivery s q.val st
        if st = 0 then dropModel s1 k.id num else s1)

/-! Admission (R346) -/

/-- The request is a running sequence of a half of a copy. -/
def inHalf (m : Model) (moved : Bool) (h : Nat) (q : Req) : Bool :=
  reqOf m.const m.num q && q.moved == moved && q.phase == .running h

/-- A request holds pages (R346). -/
def holdsPages (q : Req) : Bool :=
  match q.phase with | .waiting => false | .running _ => true | .ended _ p => p | .posting _ p => p

/-- The requests that hold pages of a copy. -/
def pageHolders (s : State) (m : Model) (moved : Bool) : List Req :=
  s.rt.reqs.filter (fun q => reqOf m.const m.num q && q.moved == moved && holdsPages q)

/-- Pages held of a copy. -/
def pagesHeld (s : State) (m : Model) (moved : Bool) : Nat :=
  (pageHolders s m moved).foldl (fun n q => n + reqPages q.prompt.length q.maxTokens) 0

/-- The page table of a request on each shard of its copy: the lowest pages that no request holds there (R346, R347). -/
def pageTables (s : State) (m : Model) (q : Req) : List (List (BitVec 32)) :=
  (List.range (copyParts m q.moved).length).map (fun j =>
    (freePages m.kvPages ((pageHolders s m q.moved).flatMap (fun r => r.pages.getD j []))).take (reqPages q.prompt.length q.maxTokens))

/-- The request table with the first request that meets a test changed. -/
def modFirst (p : Req → Bool) (f : Req → Req) : List Req → List Req
  | [] => []
  | q :: r => if p q then f q :: r else q :: modFirst p f r

/-- ADMISSION: the head request of a model joins the half with fewer sequences once one has room and its pages are free, which
it then holds (R346, R347). -/
def execAdmission (const model : Nat) (s : State) : Host.Outcome State Fault Refusal :=
  .next (
    match getModel s const model with
    | none => s
    | some m =>
      let waits := fun (q : Req) => reqOf const model q && q.phase == .waiting
      match s.rt.reqs.find? waits with
      | none => s
      | some q =>
        let size := fun h => (s.rt.reqs.filter (inHalf m q.moved h)).length
        let h := if size 1 < size 0 then 1 else 0
        if !modelServes s m q.moved ∨ size h ≥ m.maxSeq / 2
            ∨ pagesHeld s m q.moved + reqPages q.prompt.length q.maxTokens > m.kvPages then s
        else modRt s (fun r => { r with
          reqs := modFirst waits (fun x => { x with phase := .running h, pages := pageTables s m q }) r.reqs }))

end Machine
end Sys2Proof
end

