-- ==== Sys2Proof/Machine/RtStep.lean ====
section
/-!
DEFINITION. The half-steps of the service runtime: rounds (R348), text (R352), receipts (R353, R354), energy (R358), and the
loss of an instance (R359).
-/

namespace Sys2Proof
namespace Machine

/-! Text (R352) -/

/-- Bytes of the sequence that a first byte begins; 0 where it begins none. -/
def utf8Len (b : Nat) : Nat :=
  if b < 0x80 then 1 else if 0xC2 ≤ b ∧ b ≤ 0xDF then 2 else if 0xE0 ≤ b ∧ b ≤ 0xEF then 3
  else if 0xF0 ≤ b ∧ b ≤ 0xF4 then 4 else 0

/-- Byte b continues a held part of a sequence. -/
def utf8Next (part : List Byte) (b : Nat) : Bool :=
  let lo := if part.length = 1 then (match leAt part 0 1 with | 0xE0 => 0xA0 | 0xF0 => 0x90 | _ => 0x80) else 0x80
  let hi := if part.length = 1 then (match leAt part 0 1 with | 0xED => 0x9F | 0xF4 => 0x8F | _ => 0xBF) else 0xBF
  decide (lo ≤ b ∧ b ≤ hi)

/-- EF BF BD. -/
def utf8Bad : List Byte := [0xEF#8, 0xBF#8, 0xBD#8]

/-- One byte with nothing held: bytes posted, part held. -/
def utf8First (b : Byte) : List Byte × List Byte :=
  match utf8Len b.toNat with
  | 0 => (utf8Bad, [])
  | 1 => ([b], [])
  | _ => ([], [b])

/-- One byte: whole sequences posted, a maximal subpart that cannot complete replaced (R352). -/
def utf8Step (part : List Byte) (b : Byte) : List Byte × List Byte :=
  if part.isEmpty then utf8First b
  else if utf8Next part b.toNat then
    (if part.length + 1 = utf8Len (leAt part 0 1) then (part ++ [b], []) else ([], part ++ [b]))
  else
    let r := utf8First b
    (utf8Bad ++ r.1, r.2)

/-- Bytes through the assembly. -/
def utf8Feed (part : List Byte) (bs : List Byte) : List Byte × List Byte :=
  bs.foldl (fun (a : List Byte × List Byte) b =>
    let r := utf8Step a.2 b
    (a.1 ++ r.1, r.2)) ([], part)

/-- A half-step's bytes as TEXT receipts of 40 bytes (R353). -/
def chunks40 : Nat → List Byte → List (List Byte)
  | 0, _ => []
  | n + 1, l => if l.isEmpty then [] else l.take 40 :: chunks40 n (l.drop 40)

/-- Add a half-step's bytes to a request's text. -/
def addText (q : Req) (bs : List Byte) : Req := { q with buf := q.buf ++ chunks40 bs.length bs }

/-- What a half-step gives a request: its bytes, and its end with a REASON, at which a held incomplete sequence is replaced
(R352, R353). -/
def seqEnd (s : State) (q : Req) (bs : List Byte) (reason : Option Nat) : Req :=
  match reason with
  | none => addText q bs
  | some r =>
    let pages := match q.phase with | .running _ => true | _ => false
    { addText { q with part := [] } (bs ++ if q.part.isEmpty then [] else utf8Bad) with phase := .ended r pages, last := s.now }

/-- A request ends with a REASON. -/
def endReq (s : State) (q : Req) (reason : Nat) : Req := seqEnd s q [] (some reason)

/-! Half-steps (R348, R351, R352) -/

/-- Text waiting in a request's buffer (R354). -/
def bufLen (q : Req) : Nat := q.buf.foldl (fun n l => n + l.length) 0

/-- The token that a sequence has produced: its bytes, and the REASON with which it ends (R352). -/
def gotToken (s : State) (im : List Byte) (h : ImHdr) (inst : Nat) (q : Req) (v : Nat) : Req × List Byte × Option Nat :=
  let q := { q with toks := q.toks ++ [v], first := some (q.first.getD s.now), served := some inst }
  let tb := tokenBytes im h v
  let eos := v == h.eos
  let f := if q.idsOut then (toLE 4 v, q.part)
    else if eos ∨ tb.2 then ([], q.part) else utf8Feed q.part tb.1
  ({ q with part := f.2 }, f.1, if eos then some 0 else if q.toks.length ≥ q.maxTokens then some 1 else none)

/-- One sequence's part of a half-step with a budget of prompt tokens: the request, the budget left, and the first position and
number of the positions computed (R348, R352 to R355). -/
def seqStep (s : State) (im : List Byte) (h : ImHdr) (inst budget : Nat) (q : Req) : Req × Nat × Nat × Nat :=
  if bufLen q + 1024 > 4096 then (q, budget, 0, 0)
  else
    let todo := q.prompt.length - q.done
    let n := min budget todo
    let toks := if todo = 0 then [q.toks.getLastD 0] else (q.prompt.drop q.done).take n
    let base := if todo = 0 then q.prompt.length + q.toks.length - 1 else q.done
    let r := toks.zipIdx.foldl (fun (a : List Nat × List (List (List Nat × List Nat))) ti => rtToken im h (base + ti.2) ti.1 a.2)
      ([], q.kv)
    let q1 := { q with kv := r.2, done := q.done + (if todo = 0 then 0 else n) }
    let g : Req × List Byte × Option Nat :=
      if n < todo ∨ toks.isEmpty then (q1, [], none)
      else match sampleToken q (logits im h r.1) q.toks.length with
        | some v => gotToken s im h inst q1 v
        | none => (q1, [], some 4)
    let ends := if g.2.2.isNone ∧ q.cancel then some 2 else g.2.2
    (seqEnd s g.1 g.2.1 ends, if todo = 0 then budget else budget - n, base, toks.length)

/-! Rounds (R348) -/

/-- The key by which a half of a copy stands in the round of its instance: MODEL, then half A before B. -/
def roundKey (m : Model) (moved : Bool) (h : Nat) : Nat := ((m.num * 64 + m.const) * 2 + b2n moved) * 2 + h

/-- A copy's instance has a tile to work for each of its shards (R357). -/
def copyWorks (s : State) (id inst : Nat) : Bool :=
  (copyOf s id inst).any (fun i => i.shards.all (fun x => (shardTile s id x).isSome))

/-- A copy of a model can run a half-step. -/
def copyRuns (s : State) (m : Model) (moved : Bool) : Bool :=
  modelServes s m moved && (copyPlace m moved).any (fun p => copyWorks s p.1 p.2)

/-- The keys of the halves with sequences of the copies on an instance that can run. -/
def roundKeys (s : State) (id inst : Nat) : List Nat :=
  s.rt.models.flatMap (fun m => [false, true].flatMap (fun moved =>
    if copyPlace m moved = some (id, inst) ∧ copyRuns s m moved then
      ([0, 1].filter (fun h => s.rt.reqs.any (inHalf m moved h))).map (roundKey m moved)
    else []))

/-- Where the rounds of an instance are held. -/
def roundSlot (id inst : Nat) : Nat := 256 * id + inst

/-- The least of some keys. -/
def leastKey (l : List Nat) : Option Nat := l.foldl (fun m k => some (match m with | some x => min x k | none => k)) none

/-- The half whose half-step comes next on an instance: the next of the round, or the first of a new one (R348). -/
def nextHalf (s : State) (id inst : Nat) : Option Nat :=
  let ks := roundKeys s id inst
  match leastKey (ks.filter (fun k => decide (k ≥ mget s.rt.rounds 0 (roundSlot id inst)))) with
  | some k => some k
  | none => leastKey ks

/-! Energy (R358) -/

/-- Energy of an active cell in a cycle, in femtojoules, by level (08 Table 8). -/
def cellEnergy (level : Nat) : Nat := ([100, 81, 62] : List Nat).getD level 47

/-- Energy of n MACs: an FP4 MAC takes half a cell, an FP8 MAC a cell (08 Table 1, R214). -/
def macEnergy (h : ImHdr) (level n : Nat) : Nat := n * cellEnergy level / (if h.wfmt = 2 then 1 else 2)

/-- Energy of n bytes of DRAM at 0.35 pJ for each bit (R358). -/
def dramEnergy (n : Nat) : Nat := n * 8 * 350

/-- MACs of one token through the layers, and of the logits. -/
def layerMacs (h : ImHdr) : Nat :=
  (imTensors h).foldl (fun a t => match weightDims h t.2.1 with
    | some (k, n) => if t.1 < h.layers then a + k * n else a
    | none => a) 0
def logitMacs (h : ImHdr) : Nat := h.dModel * h.vocab

/-- KV bytes read and written for n positions from position pos on. -/
def kvMoved (h : ImHdr) (pos n : Nat) : Nat := (List.range n).foldl (fun a i => a + (pos + i + 1) * kvBytes h) 0

/-- The energy that the work of one sequence takes for itself. -/
def workEnergy (h : ImHdr) (level : Nat) (w : SeqWork) (logit : Bool) : Nat :=
  macEnergy h level (w.n * layerMacs h + (if logit then logitMacs h else 0)) + dramEnergy (kvMoved h w.pos w.n)

/-- The shares of a half-step's energy: the work of prompt tokens is shared by the prompt tokens of each sequence, the weights
and the rest equally among the sequences (R358; assumption 100). `ws` tells whose work was prompt tokens, and `weights` the
bytes of weights read. -/
def shareEnergy (h : ImHdr) (level weights : Nat) (ws : List (SeqWork × Bool)) : List Nat :=
  let pre := ws.filter (·.2)
  let all := fun (l : List (SeqWork × Bool)) => l.foldl (fun a w => a + workEnergy h level w.1 (!w.2)) 0
  let rest := dramEnergy weights + all (ws.filter (fun w => !w.2))
  let prompts := pre.foldl (fun a w => a + w.1.n) 0
  ws.map (fun (w : SeqWork × Bool) => rest / ws.length + (if w.2 && decide (prompts > 0) then all pre * w.1.n / prompts else 0))

/-! Receipts (R353, R354) -/

/-- RQUEUE's receipt ring takes another receipt of the runtime (R336, R354, R360). -/
def ringRoom (s : State) (q : Req) : Bool :=
  let r := queueRring s q.rqueue
  let waiting := (s.qf.receipts.filter (fun x => queueRring s x.q == r)).length
  ((queueConst s q.rqueue).map (·.id)) == some q.const && mayPost s && rringEn s r
    && decide (diff32 (s.qf.rposts.getD r 0) (s.qf.rcons.getD r 0) + waiting < rringEntries s r)

/-- Hand one receipt of the runtime to the posting engine; `final` names the request that it ends (R331, R344, R353). -/
def runtimePost (s : State) (q : Req) (kind nb : Nat) (body : List Byte) (final : Option Nat) : State :=
  let raw := List.replicate 12 0#8 ++ toLE 1 kind ++ toLE 1 nb ++ toLE 2 (q.chunk % 65536) ++ toLE 8 q.tag
    ++ (body ++ List.replicate 40 0#8).take 40
  modF s (fun f => { f with receipts := f.receipts ++
    [{ q := q.rqueue, kind := 2, type := 0, status := 0, detail := 0, tag := 0, index := 0, words := [], raw := some raw
       slots := 0, last := true, req := final }] })

/-- The FINAL receipt's fields (14 Table 4); FIRST_TICKS and INSTANCE have no value where no token was produced. -/
def finalBody (s : State) (q : Req) : List Byte :=
  let free := fun i => (Config.freeValue (s.draws + i)).toNat
  toLE 4 q.prompt.length ++ toLE 4 q.toks.length ++ toLE 8 (q.energy / 1000000)
    ++ toLE 4 (match q.first with | some t => t - q.at_ | none => free 0) ++ toLE 4 (q.last - q.at_) ++ toLE 2 (q.model % 1024)
    ++ toLE 1 (match q.served with | some i => i | none => free 1) ++ List.replicate 13 0#8

/-- Hand over what one request can post: TEXT receipts in order, then FINAL. -/
def postReq : Nat → State → Req → State × Req
  | 0, s, q => (s, q)
  | n + 1, s, q =>
    if !ringRoom s q then (s, q)
    else
      match q.buf, q.phase with
      | b :: r, _ => postReq n (runtimePost s q 1 b.length b none) { q with buf := r, chunk := q.chunk + 1 }
      | [], .ended reason pages =>
        ({ runtimePost s q 2 reason (finalBody s q) (some q.id) with draws := s.draws + 2 }, { q with phase := .posting reason pages })
      | [], _ => (s, q)

/-- Every request whose coordinator runs posts what it can; that of a moved request is its standby copy's (R353, R354,
R359). -/
def rtFlush (s : State) : State :=
  if s.pw.mstate = 2 then s
  else
    let r := s.rt.reqs.foldl (fun (a : State × List Req) q =>
      let p := if rtOn s (reqHost s q) then postReq (q.buf.length + 1) a.1 q else (a.1, q)
      (p.1, a.2 ++ [p.2])) (s, [])
    modRt r.1 (fun x => { x with reqs := r.2 })

/-- What one half of a copy has done in its half-step: the requests after it, and for each sequence its work, with whether it was
prompt tokens. -/
def halfWork (s : State) (m : Model) (moved : Bool) (h : Nat) : List Req × List (SeqWork × Bool) :=
  let hd := imHdr m.image
  let inst := ((copyPlace m moved).map (·.2)).getD 0
  let r := s.rt.reqs.foldl (fun (a : List Req × List (SeqWork × Bool) × Nat) q =>
    if inHalf m moved h q then
      let x := seqStep s m.image hd inst a.2.2 q
      (a.1 ++ [x.1], (if x.2.2.2 = 0 then a.2.1 else a.2.1 ++ [({ q := x.1, pos := x.2.2.1, n := x.2.2.2 }, decide (q.done < q.prompt.length))]), x.2.1)
    else (a.1 ++ [q], a.2.1, a.2.2)) ([], [], 256)
  (r.1, r.2.1)

/-- The requests with their shares of the energy of a half-step. -/
def chargeReqs (reqs : List Req) (ws : List (SeqWork × Bool)) (shares : List Nat) : List Req :=
  reqs.map (fun q => match (ws.zip shares).find? (fun x => x.1.1.q.id == q.id) with
    | some x => { q with energy := q.energy + x.2 }
    | none => q)

/-- HALF_STEP: the half of a copy of a model whose turn has come runs a half-step: output tokens, at most 256 prompt tokens in
admission order, sampling, text and receipts (R347, R348, R352 to R358). -/
def execHalfStep (const model : Nat) (standby : Bool) (half : Fin 2) (s : State) : Host.Outcome State Fault Refusal :=
  .next (
    match getModel s const model with
    | none => s
    | some m =>
      match copyPlace m standby with
      | none => s
      | some (id, inst) =>
        let key := roundKey m standby half.val
        if nextHalf s id inst ≠ some key then s
        else
          let h := imHdr m.image
          let w := halfWork s m standby half.val
          let ps := copyParts m standby
          let tiles := ((copyOf s id inst).map (·.shards.map (fun x => (shardTile s id x).getD 0))).getD []
          let reqs := chargeReqs w.1 w.2 (shareEnergy h (getT s (tiles.headD 0)).level (ps.foldl (fun a p => a + p.copyLen) 0) w.2)
          let taken := s.rt.models.flatMap (fun m => m.parts ++ m.sbParts)
          let s1 := overTime (fun s => if w.2.isEmpty then s else
            ps.zipIdx.foldl (fun s pj =>
              let t := tiles.getD pj.2 0
              shardStep h taken ps.length t (w.2.map (·.1)) pj (wakeTile s t)) s) s
          rtFlush (modRt s1 (fun x => { x with reqs := reqs, rounds := mset x.rounds (roundSlot id inst) (key + 1) })))

/-! Loss of an instance (R359) -/

/-- A number for a model that is unregistered while requests finish on its standby copy. -/
def ghostNum (s : State) (const num : Nat) : Nat :=
  (((List.range (s.rt.models.length + 1)).map (fun j => num % 1024 + 1024 * (j + 1))).find? (fun n => (getModel s const n).isNone)).getD 1024

/-- A model is unregistered, and an error record posted; requests that its standby copy serves keep it (R359). -/
def unregister (s : State) (m : Model) : State :=
  let keep := s.rt.reqs.any (fun q => reqOf m.const m.num q && q.moved && !(match q.phase with | .posting _ _ => true | _ => false))
  let n := ghostNum s m.const m.num
  let s := if keep then
      modRt s (fun r => { r with
        models := r.models.map (fun x => if x.const = m.const ∧ x.num = m.num then { x with num := n, parts := [] } else x)
        reqs := r.reqs.map (fun q => if reqOf m.const m.num q ∧ q.moved then { q with model := n } else q) })
    else dropModel s m.const m.num
  setCoords (postErr s (lsDie s) 2 0x0A01 m.const 0 (toLE 2 m.num ++ toLE 1 m.inst))

/-- A copy of a model whose requests must end or move: it does not serve. -/
def copyDown (s : State) (m : Model) (moved : Bool) : Bool := !modelServes s m moved

/-- What the loss does to a request of the model: a sequence ends, a request that waits moves to a standby copy that serves, or
ends (R359). -/
def lossStep (s : State) (m : Model) (q : Req) : Req :=
  if !reqOf m.const m.num q ∨ !copyDown s m q.moved then q
  else match q.phase with
    | .running _ => endReq s q 3
    | .waiting => if !q.moved ∧ !copyDown s m true then { q with moved := true } else endReq s q 3
    | _ => q

/-- INSTANCE_LOSS: the requests of a copy that does not serve end or move to the standby copy; a standby copy whose regions
became unpredictable is given up; a model whose own regions did is unregistered once its instance serves again (R359). -/
def execInstanceLoss (const model : Nat) (s : State) : Host.Outcome State Fault Refusal :=
  .next (
    match getModel s const model with
    | none => s
    | some m =>
      let s1 := modRt s (fun r => { r with reqs := r.reqs.map (lossStep s m) })
      let s2 := if regionsLost s m true then
          modRt s1 (fun r => { r with models := r.models.map (fun x =>
            if x.const = m.const ∧ x.num = m.num then { x with standby := none, sbParts := [] } else x) })
        else s1
      let m2 := (getModel s2 const model).getD m
      let s3 := if m.num < 1024 then
          (if regionsLost s m false ∧ copyServes s m.const m.inst then unregister s2 m2 else s2)
        else if s2.rt.reqs.any (reqOf const model) ∧ m2.standby.isSome then s2 else dropModel s2 const model
      rtFlush s3)

end Machine
end Sys2Proof
end

