-- ==== Sys2Proof/Machine/Dispatch.lean ====
section
/-!
DEFINITION. The meaning of every command: one arm per row of opcode_table.json.
-/

namespace Sys2Proof
namespace Machine

/-- The effect of a command on everything but the queue of waiting commands. -/
def exec (i : Instr) (s : State) : Host.Outcome State Fault Refusal :=
  match i with
  | .addSubLogic t c op rd rs1 rs2 => Sys2Proof.Machine.execAddSubLogic t c op rd rs1 rs2 s
  | .shift t c op rd rs1 rs2 => Sys2Proof.Machine.execShift t c op rd rs1 rs2 s
  | .setLessThan t c op rd rs1 rs2 => Sys2Proof.Machine.execSetLessThan t c op rd rs1 rs2 s
  | .minMax t c op rd rs1 rs2 => Sys2Proof.Machine.execMinMax t c op rd rs1 rs2 s
  | .addwSubw t c op rd rs1 rs2 => Sys2Proof.Machine.execAddwSubw t c op rd rs1 rs2 s
  | .bitCount t c op rd rs1 => Sys2Proof.Machine.execBitCount t c op rd rs1 s
  | .mul t c op rd rs1 rs2 => Sys2Proof.Machine.execMul t c op rd rs1 rs2 s
  | .divRem t c op rd rs1 rs2 => Sys2Proof.Machine.execDivRem t c op rd rs1 rs2 s
  | .addi t c op rd rs1 imm => Sys2Proof.Machine.execAddi t c op rd rs1 imm s
  | .logicImm t c op rd rs1 imm => Sys2Proof.Machine.execLogicImm t c op rd rs1 imm s
  | .shiftImm t c op rd rs1 amt => Sys2Proof.Machine.execShiftImm t c op rd rs1 amt s
  | .lui t c rd imm => Sys2Proof.Machine.execLui t c rd imm s
  | .lapc t c rd imm => Sys2Proof.Machine.execLapc t c rd imm s
  | .load t c op rd rs1 seg imm => Sys2Proof.Machine.execLoad t c op rd rs1 seg imm s
  | .store t c sz rs rs1 seg imm => Sys2Proof.Machine.execStore t c sz rs rs1 seg imm s
  | .amo t c op dw rd rs1 rs2 seg => Sys2Proof.Machine.execAmo t c op dw rd rs1 rs2 seg s
  | .amocas t c dw rd rs1 rs2 seg => Sys2Proof.Machine.execAmocas t c dw rd rs1 rs2 seg s
  | .dzl t c rs1 seg => Sys2Proof.Machine.execDzl t c rs1 seg s
  | .rclean t c rs1 rs2 seg => Sys2Proof.Machine.execRclean t c rs1 rs2 seg s
  | .rinval t c rs1 rs2 seg => Sys2Proof.Machine.execRinval t c rs1 rs2 seg s
  | .rcinval t c rs1 rs2 seg => Sys2Proof.Machine.execRcinval t c rs1 rs2 seg s
  | .macm t c sz uns sub rs1 rs2 sx sy => Sys2Proof.Machine.execMacm t c sz uns sub rs1 rs2 sx sy s
  | .branch t c op rs1 rs2 off => Sys2Proof.Machine.execBranch t c op rs1 rs2 off s
  | .jump t c off => Sys2Proof.Machine.execJump t c off s
  | .call t c off => Sys2Proof.Machine.execCall t c off s
  | .jr t c rd rs1 => Sys2Proof.Machine.execJr t c rd rs1 s
  | .callr t c rd rs1 => Sys2Proof.Machine.execCallr t c rd rs1 s
  | .ret t c => Sys2Proof.Machine.execRet t c s
  | .loop t c l rs len => Sys2Proof.Machine.execLoop t c l rs len s
  | .loopi t c l cnt len => Sys2Proof.Machine.execLoopi t c l cnt len s
  | .lpclr t c l => Sys2Proof.Machine.execLpclr t c l s
  | .rspush t c rs1 => Sys2Proof.Machine.execRspush t c rs1 s
  | .rspop t c rd => Sys2Proof.Machine.execRspop t c rd s
  | .rsclr t c => Sys2Proof.Machine.execRsclr t c s
  | .segset t c n rs1 rs2 => Sys2Proof.Machine.execSegset t c n rs1 rs2 s
  | .segnarrow t c n mask rs1 rs2 => Sys2Proof.Machine.execSegnarrow t c n mask rs1 rs2 s
  | .segrda t c n rd => Sys2Proof.Machine.execSegrda t c n rd s
  | .segrdl t c n rd => Sys2Proof.Machine.execSegrdl t c n rd s
  | .csrr t c rd csr => Sys2Proof.Machine.execCsrr t c rd csr s
  | .csrw t c rd rs1 csr => Sys2Proof.Machine.execCsrw t c rd rs1 csr s
  | .csrs t c rd rs1 csr => Sys2Proof.Machine.execCsrs t c rd rs1 csr s
  | .csrc t c rd rs1 csr => Sys2Proof.Machine.execCsrc t c rd rs1 csr s
  | .tgliveWrite t c op rd rs1 h => Sys2Proof.Machine.execTgliveWrite t c op rd rs1 h s
  | .isync t c => Sys2Proof.Machine.execIsync t c s
  | .fenceG t c => Sys2Proof.Machine.execFenceG t c s
  | .fenceB t c => Sys2Proof.Machine.execFenceB t c s
  | .fenceD t c rs1 => Sys2Proof.Machine.execFenceD t c rs1 s
  | .fenceS t c rs1 => Sys2Proof.Machine.execFenceS t c rs1 s
  | .yieldw t c => Sys2Proof.Machine.execYieldw t c s
  | .sret t c => Sys2Proof.Machine.execSret t c s
  | .eret t c => Sys2Proof.Machine.execEret t c s
  | .halt t c => Sys2Proof.Machine.execHalt t c s
  | .qwait t c rd rs1 rs2 => Sys2Proof.Machine.execQwait t c rd rs1 rs2 s
  | .qwaitTimeout t c => Sys2Proof.Machine.execQwaitTimeout t c s
  | .mxq t c rd rs1 => Sys2Proof.Machine.execMxq t c rd rs1 s
  | .mxwait t c rs1 => Sys2Proof.Machine.execMxwait t c rs1 s
  | .brk t c => Sys2Proof.Machine.execBrk t c s
  | .scall t c n => Sys2Proof.Machine.execScall t c n s
  | .tgon t c rs1 => Sys2Proof.Machine.execTgon t c rs1 s
  | .tgoff t c => Sys2Proof.Machine.execTgoff t c s
  | .tbr t c vs rs1 => Sys2Proof.Machine.execTbr t c vs rs1 s
  | .tbrz t c vs rs1 => Sys2Proof.Machine.execTbrz t c vs rs1 s
  | .loadResponse t c k => Sys2Proof.Machine.execLoadResponse t c k s
  | .responseFaultEntry t c => Sys2Proof.Machine.execResponseFaultEntry t c s
  | .interruptEntry t c => Sys2Proof.Machine.execInterruptEntry t c s
  | .ctxTimerExpiry t c => Sys2Proof.Machine.execCtxTimerExpiry t c s
  | .storeCoherenceAck t k => Sys2Proof.Machine.execStoreCoherenceAck t k s
  | .vshape t c rd rs1 sew alt mz => Sys2Proof.Machine.execVshape t c rd rs1 sew alt mz s
  | .vmvXS t c rd vs => Sys2Proof.Machine.execVmvXS t c rd vs s
  | .vmvSX t c vs rs1 => Sys2Proof.Machine.execVmvSX t c vs rs1 s
  | .vmvVX t c vs rs1 => Sys2Proof.Machine.execVmvVX t c vs rs1 s
  | .vintOp t c op vd vs1 b m => Sys2Proof.Machine.execVintOp t c op vd vs1 b m s
  | .vfpOp t c op vd vs1 b m => Sys2Proof.Machine.execVfpOp t c op vd vs1 b m s
  | .vcompare t c op vd vs1 b m => Sys2Proof.Machine.execVcompare t c op vd vs1 b m s
  | .vmerge t c vd vs1 b => Sys2Proof.Machine.execVmerge t c vd vs1 b s
  | .vfcvt t c toInt vd vs1 m => Sys2Proof.Machine.execVfcvt t c toInt vd vs1 m s
  | .vfdivVfsqrt t c sqrt vd vs1 vs2 m => Sys2Proof.Machine.execVfdivVfsqrt t c sqrt vd vs1 vs2 m s
  | .vwidenMul t c op vd vs1 vs2 m => Sys2Proof.Machine.execVwidenMul t c op vd vs1 vs2 m s
  | .vdot t c op vd vs1 vs2 m => Sys2Proof.Machine.execVdot t c op vd vs1 vs2 m s
  | .vreduceInt t c op vd vs1 m => Sys2Proof.Machine.execVreduceInt t c op vd vs1 m s
  | .vreduceFp t c op vd vs1 m => Sys2Proof.Machine.execVreduceFp t c op vd vs1 m s
  | .vrgather t c vd vs1 vs2 m => Sys2Proof.Machine.execVrgather t c vd vs1 vs2 m s
  | .vslideup t c vd vs1 rs2 m => Sys2Proof.Machine.execVslideup t c vd vs1 rs2 m s
  | .vslidedown t c vd vs1 rs2 m => Sys2Proof.Machine.execVslidedown t c vd vs1 rs2 m s
  | .vcompress t c vd vs1 => Sys2Proof.Machine.execVcompress t c vd vs1 s
  | .vid t c vd m => Sys2Proof.Machine.execVid t c vd m s
  | .vmacm t c fp vd rs1 rs2 m => Sys2Proof.Machine.execVmacm t c fp vd rs1 rs2 m s
  | .vload t c vd rs1 seg m mode => Sys2Proof.Machine.execVload t c vd rs1 seg m mode s
  | .vstore t c vs rs1 seg m mode => Sys2Proof.Machine.execVstore t c vs rs1 seg m mode s
  | .vamo t c op vd vs1 vs2 seg m => Sys2Proof.Machine.execVamo t c op vd vs1 vs2 seg m s
  | .laneGroup t k => Sys2Proof.Machine.execLaneGroup t k s
  | .laneFinish t k => Sys2Proof.Machine.execLaneFinish t k s
  | .vloadResponse t k => Sys2Proof.Machine.execVloadResponse t k s
  | .mxIssue t cycle => Sys2Proof.Machine.execMxIssue t cycle s
  | .mxPassStart t => Sys2Proof.Machine.execMxPassStart t s
  | .mxRowExit t => Sys2Proof.Machine.execMxRowExit t s
  | .mxComplete t => Sys2Proof.Machine.execMxComplete t s
  | .mbOpenTimeout t k => Sys2Proof.Machine.execMbOpenTimeout t k s
  | .mbDrain t => Sys2Proof.Machine.execMbDrain t s
  | .drainAck t => Sys2Proof.Machine.execDrainAck t s
  | .cacheFill t src => Sys2Proof.Machine.execCacheFill t src s
  | .stackCacheRequest t r errs => Sys2Proof.Machine.execStackCacheRequest t r errs s
  | .patrolRead d inner errs => Sys2Proof.Machine.execPatrolRead d inner errs s
  | .tempSample d readings => Sys2Proof.Machine.execTempSample d readings s
  | .tokenRefill d => Sys2Proof.Machine.execTokenRefill d s
  | .rangeOpStart t => Sys2Proof.Machine.execRangeOpStart t s
  | .rangeOpComplete t => Sys2Proof.Machine.execRangeOpComplete t s
  | .arbiterRound a arrivals => Sys2Proof.Machine.execArbiterRound a arrivals s
  | .censusExpiry a di => Sys2Proof.Machine.execCensusExpiry a di s
  | .pathSwitch t d => Sys2Proof.Machine.execPathSwitch t d s
  | .bridgeDown d egress => Sys2Proof.Machine.execBridgeDown d egress s
  | .flitTransmit p => Sys2Proof.Machine.execFlitTransmit p s
  | .flitReceive p bytes => Sys2Proof.Machine.execFlitReceive p bytes s
  | .nakReplay p => Sys2Proof.Machine.execNakReplay p s
  | .laneFail p lane lost => Sys2Proof.Machine.execLaneFail p lane lost s
  | .retrainDone p good blk idle => Sys2Proof.Machine.execRetrainDone p good blk idle s
  | .portTrainStep p good blk ok => Sys2Proof.Machine.execPortTrainStep p good blk ok s
  | .detectRetry p => Sys2Proof.Machine.execDetectRetry p s
  | .downRetrainTimer p => Sys2Proof.Machine.execDownRetrainTimer p s
  | .transactionReceive p errs => Sys2Proof.Machine.execTransactionReceive p errs s
  | .routeThrough p => Sys2Proof.Machine.execRouteThrough p s
  | .linkResponse p => Sys2Proof.Machine.execLinkResponse p s
  | .requestTimeout p tag => Sys2Proof.Machine.execRequestTimeout p tag s
  | .messageReceive errs => Sys2Proof.Machine.execMessageReceive errs s
  | .updatePut l k errs => Sys2Proof.Machine.execUpdatePut l k errs s
  | .updateAck l => Sys2Proof.Machine.execUpdateAck l s
  | .ueReload a mask => Sys2Proof.Machine.execUeReload a mask s
  | .ueReloadDone l k errs => Sys2Proof.Machine.execUeReloadDone l k errs s
  | .ueUnpark a mask => Sys2Proof.Machine.execUeUnpark a mask s
  | .configRequest r w => Sys2Proof.Machine.execConfigRequest r w s
  | .configReady l => Sys2Proof.Machine.execConfigReady l s
  | .bar0BadAccess read off len => Sys2Proof.Machine.execBar0BadAccess read off len s
  | .mirrorRead off wide => Sys2Proof.Machine.execMirrorRead off wide s
  | .mirrorReadTimeout => Sys2Proof.Machine.execMirrorReadTimeout s
  | .bar2Read off len errs => Sys2Proof.Machine.execBar2Read off len errs s
  | .bar2Write off bytes errs => Sys2Proof.Machine.execBar2Write off bytes errs s
  | .bar4Write => Sys2Proof.Machine.execBar4Write s
  | .hostReadCompletion id ok data => Sys2Proof.Machine.execHostReadCompletion id ok data s
  | .translationCompletion id ok base size target rd wr => Sys2Proof.Machine.execTranslationCompletion id ok base size target rd wr s
  | .invalidateRequest itag pasid base size => Sys2Proof.Machine.execInvalidateRequest itag pasid base size s
  | .invalLimitExpiry itag => Sys2Proof.Machine.execInvalLimitExpiry itag s
  | .atsDisable => Sys2Proof.Machine.execAtsDisable s
  | .d3hotEntry => Sys2Proof.Machine.execD3hotEntry s
  | .d0Return => Sys2Proof.Machine.execD0Return s
  | .l0pNarrow w => Sys2Proof.Machine.execL0pNarrow w s
  | .l0pWiden => Sys2Proof.Machine.execL0pWiden s
  | .l1Entry => Sys2Proof.Machine.execL1Entry s
  | .flr => Sys2Proof.Machine.execFlr s
  | .hotReset => Sys2Proof.Machine.execHotReset s
  | .doorbell q tail => Sys2Proof.Machine.execDoorbell q tail s
  | .tileDoorbell t q tail => Sys2Proof.Machine.execTileDoorbell t q tail s
  | .queueEnable q => Sys2Proof.Machine.execQueueEnable q s
  | .queueDisable q => Sys2Proof.Machine.execQueueDisable q s
  | .queueResume q => Sys2Proof.Machine.execQueueResume q s
  | .queueCancel q => Sys2Proof.Machine.execQueueCancel q s
  | .queueReset q => Sys2Proof.Machine.execQueueReset q s
  | .fetchRunStart q => Sys2Proof.Machine.execFetchRunStart q s
  | .ringFetchDone q host errs => Sys2Proof.Machine.execRingFetchDone q host errs s
  | .ringFetchFault q => Sys2Proof.Machine.execRingFetchFault q s
  | .drainTest q => Sys2Proof.Machine.execDrainTest q s
  | .descriptorStart q => Sys2Proof.Machine.execDescriptorStart q s
  | .descriptorComplete q idx => Sys2Proof.Machine.execDescriptorComplete q idx s
  | .copy q idx errs => Sys2Proof.Machine.execCopy q idx errs s
  | .launchStart q => Sys2Proof.Machine.execLaunchStart q s
  | .launchEnd q idx => Sys2Proof.Machine.execLaunchEnd q idx s
  | .fenceWrite f v => Sys2Proof.Machine.execFenceWrite f v s
  | .fenceClr f => Sys2Proof.Machine.execFenceClr f s
  | .serviceDelivery q errs => Sys2Proof.Machine.execServiceDelivery q errs s
  | .svcDone t q status index => Sys2Proof.Machine.execSvcDone t q status index s
  | .qfPost t q count addr errs => Sys2Proof.Machine.execQfPost t q count addr errs s
  | .watchdogExpiry q => Sys2Proof.Machine.execWatchdogExpiry q s
  | .fenceCycleSweep => Sys2Proof.Machine.execFenceCycleSweep s
  | .queueResetDone q => Sys2Proof.Machine.execQueueResetDone q s
  | .letterboxRegister v => Sys2Proof.Machine.execLetterboxRegister v s
  | .rringConfig r v => Sys2Proof.Machine.execRringConfig r v s
  | .rringConsWrite r v => Sys2Proof.Machine.execRringConsWrite r v s
  | .errConsWrite v => Sys2Proof.Machine.execErrConsWrite v s
  | .receiptPost r => Sys2Proof.Machine.execReceiptPost r s
  | .queueWordPost q => Sys2Proof.Machine.execQueueWordPost q s
  | .globalBlockPost => Sys2Proof.Machine.execGlobalBlockPost s
  | .lbHeartbeat => Sys2Proof.Machine.execLbHeartbeat s
  | .amendFullLoad host flash errs => Sys2Proof.Machine.execAmendFullLoad host flash errs s
  | .amendAmendment host flash errs => Sys2Proof.Machine.execAmendAmendment host flash errs s
  | .quiesceEnd => Sys2Proof.Machine.execQuiesceEnd s
  | .quiesceTimeout => Sys2Proof.Machine.execQuiesceTimeout s
  | .runtimeLaunch => Sys2Proof.Machine.execRuntimeLaunch s
  | .svcGenerate q errs => Sys2Proof.Machine.execSvcGenerate q errs s
  | .svcCancel q => Sys2Proof.Machine.execSvcCancel q s
  | .svcRegister q errs => Sys2Proof.Machine.execSvcRegister q errs s
  | .svcUnregister q => Sys2Proof.Machine.execSvcUnregister q s
  | .admission const model => Sys2Proof.Machine.execAdmission const model s
  | .halfStep const model standby half => Sys2Proof.Machine.execHalfStep const model standby half s
  | .instanceLoss const model => Sys2Proof.Machine.execInstanceLoss const model s
  | .tileIdleT1 t => Sys2Proof.Machine.execTileIdleT1 t s
  | .tileT2Entry t => Sys2Proof.Machine.execTileT2Entry t s
  | .tileWake t => Sys2Proof.Machine.execTileWake t s
  | .opPointChange t => Sys2Proof.Machine.execOpPointChange t s
  | .powerInterval pin est => Sys2Proof.Machine.execPowerInterval pin est s
  | .overPower pin => Sys2Proof.Machine.execOverPower pin s
  | .overpowerClear d => Sys2Proof.Machine.execOverpowerClear d s
  | .overpowerAutoLift => Sys2Proof.Machine.execOverpowerAutoLift s
  | .pwrbrkAssert => Sys2Proof.Machine.execPwrbrkAssert s
  | .pwrbrkDeassert => Sys2Proof.Machine.execPwrbrkDeassert s
  | .brakeHoldExpiry => Sys2Proof.Machine.execBrakeHoldExpiry s
  | .brakeInterval pin est => Sys2Proof.Machine.execBrakeInterval pin est s
  | .brakeStuck => Sys2Proof.Machine.execBrakeStuck s
  | .brakeMask b => Sys2Proof.Machine.execBrakeMask b s
  | .m2EnterReq => Sys2Proof.Machine.execM2EnterReq s
  | .m0ReturnReq => Sys2Proof.Machine.execM0ReturnReq s
  | .m1Entry => Sys2Proof.Machine.execM1Entry s
  | .m1Exit => Sys2Proof.Machine.execM1Exit s
  | .provisionId x => Sys2Proof.Machine.execProvisionId x s
  | .fwUpdate k image => Sys2Proof.Machine.execFwUpdate k image s
  | .spdmGetVersion m => Sys2Proof.Machine.execSpdmGetVersion m s
  | .spdmGetCapabilities m ver => Sys2Proof.Machine.execSpdmGetCapabilities m ver s
  | .spdmNegotiateAlgorithms m ver => Sys2Proof.Machine.execSpdmNegotiateAlgorithms m ver s
  | .spdmGetDigests m ver => Sys2Proof.Machine.execSpdmGetDigests m ver s
  | .spdmGetCertificate m ver slot off len => Sys2Proof.Machine.execSpdmGetCertificate m ver slot off len s
  | .spdmChallenge m ver slot nonce => Sys2Proof.Machine.execSpdmChallenge m ver slot nonce s
  | .spdmGetMeasurements m ver index sign nonce => Sys2Proof.Machine.execSpdmGetMeasurements m ver index sign nonce s
  | .spdmChunkSend m ver handle seq last bytes => Sys2Proof.Machine.execSpdmChunkSend m ver handle seq last bytes s
  | .spdmChunkGet m ver handle seq => Sys2Proof.Machine.execSpdmChunkGet m ver handle seq s
  | .getChallenge x => Sys2Proof.Machine.execGetChallenge x s
  | .challengeExpiry => Sys2Proof.Machine.execChallengeExpiry s
  | .debugToken x b => Sys2Proof.Machine.execDebugToken x b s
  | .meterAuditAck => Sys2Proof.Machine.execMeterAuditAck s
  | .debugClose x => Sys2Proof.Machine.execDebugClose x s
  | .sessionExpiry => Sys2Proof.Machine.execSessionExpiry s
  | .debugHalt t c => Sys2Proof.Machine.execDebugHalt t c s
  | .debugResume t c one => Sys2Proof.Machine.execDebugResume t c one s
  | .debugAccess p w => Sys2Proof.Machine.execDebugAccess p w s
  | .lifecycle b owner => Sys2Proof.Machine.execLifecycle b owner s
  | .wipeDone => Sys2Proof.Machine.execWipeDone s
  | .activityPostSend t => Sys2Proof.Machine.execActivityPostSend t s
  | .activityPostReceive => Sys2Proof.Machine.execActivityPostReceive s
  | .energySample v di => Sys2Proof.Machine.execEnergySample v di s
  | .meterIntervalEnd => Sys2Proof.Machine.execMeterIntervalEnd s
  | .postmark => Sys2Proof.Machine.execPostmark s
  | .chartMessage => Sys2Proof.Machine.execChartMessage s
  | .debugEventReceive => Sys2Proof.Machine.execDebugEventReceive s
  | .meterGetChallenge => Sys2Proof.Machine.execMeterGetChallenge s
  | .readLedger index n => Sys2Proof.Machine.execReadLedger index n s
  | .readPostmark block => Sys2Proof.Machine.execReadPostmark block s
  | .setParam p v token => Sys2Proof.Machine.execSetParam p v token s
  | .seal target token => Sys2Proof.Machine.execSeal target token s
  | .meterProvision => Sys2Proof.Machine.execMeterProvision s
  | .meterFwUpdate image token => Sys2Proof.Machine.execMeterFwUpdate image token s
  | .windowPush => Sys2Proof.Machine.execWindowPush s
  | .meterFault => Sys2Proof.Machine.execMeterFault s
  | .errorRecordPost => Sys2Proof.Machine.execErrorRecordPost s
  | .fenceReleaseTest mask => Sys2Proof.Machine.execFenceReleaseTest mask s
  | .releaseTestDone d pass => Sys2Proof.Machine.execReleaseTestDone d pass s
  | .lsHeartbeat standby => Sys2Proof.Machine.execLsHeartbeat standby s
  | .lsFailover => Sys2Proof.Machine.execLsFailover s
  | .lsPeerLost => Sys2Proof.Machine.execLsPeerLost s
  | .orphanFence di => Sys2Proof.Machine.execOrphanFence di s
  | .auxGood modId => Sys2Proof.Machine.execAuxGood modId s
  | .mainGood => Sys2Proof.Machine.execMainGood s
  | .mainLost => Sys2Proof.Machine.execMainLost s
  | .auxLost => Sys2Proof.Machine.execAuxLost s
  | .startupStepDone k bad => Sys2Proof.Machine.execStartupStepDone k bad s
  | .perstAssert => Sys2Proof.Machine.execPerstAssert s
  | .perstDeassert => Sys2Proof.Machine.execPerstDeassert s
  | .resetHoldDone => Sys2Proof.Machine.execResetHoldDone s
  | .hxReset v => Sys2Proof.Machine.execHxReset v s
  | .trimRead x save => Sys2Proof.Machine.execTrimRead x save s
  | .trimWrite b => Sys2Proof.Machine.execTrimWrite b s
  | .trimSave => Sys2Proof.Machine.execTrimSave s
  | .trimRestore => Sys2Proof.Machine.execTrimRestore s
  | .thermalTrip di => Sys2Proof.Machine.execThermalTrip di s
  | .thermtripRelease => Sys2Proof.Machine.execThermtripRelease s
  | .registerWrite a p wide v => Sys2Proof.Machine.execRegisterWrite a p wide v s
  | .hostCompletionTimeout forTrans id => Sys2Proof.Machine.execHostCompletionTimeout forTrans id s
  | .l1Exit => Sys2Proof.Machine.execL1Exit s
  | .pcieAer cor unc => Sys2Proof.Machine.execPcieAer cor unc s
  | .dieFatal di reason => Sys2Proof.Machine.execDieFatal di reason s
  | .illegalWord t c w => Sys2Proof.Machine.execIllegalWord t c w s
  | .instructionFetchFault t c => Sys2Proof.Machine.execInstructionFetchFault t c s
  | .spdmUnsupportedRequest m ver => Sys2Proof.Machine.execSpdmUnsupportedRequest m ver s
  | .pldmOwnerReset => Sys2Proof.Machine.execPldmOwnerReset s
  | .i3cCcc a => Sys2Proof.Machine.execI3cCcc a s
  | .meterChallengeExpiry => Sys2Proof.Machine.execMeterChallengeExpiry s

end Machine
end Sys2Proof
end

