-- ==== Sys2Proof/Machine/Tick.lean ====
section
/-!
DEFINITION. One AON tick of the model's own time (assumption 2): what the passage of time does that no command names.
-/

namespace Sys2Proof
namespace Machine

/-- Words of a tile's store that reads have corrected: one record per tile per 12,500 ticks, with the count since the last
(R218, R244). -/
def sramCorr (s : State) (t n : Nat) : State :=
  let x := mget s.sram (0, 0) t
  if n = 0 ∨ (getT s t).tstate = .t3 then s
  else if x.1 = 0 ∨ s.now ≥ x.1 - 1 + 12500 then
    postErr { s with sram := mset s.sram t (s.now + 1, 0) } (t / 64) 0 0x0102 t 0 [] 0 (x.2 + n)
  else { s with sram := mset s.sram t (x.1, x.2 + n) }

/-- A word of a tile's store comes to hold an uncorrectable error, which the next read of it finds (R218, R219). -/
def sramStrike (s : State) (t w : Nat) : State :=
  let T := getT s t
  if T.tstate = .t3 ∨ w ≥ 2 ^ 15 ∨ T.poison.contains w then s else setT s t { T with latent := sIns T.latent w }

/-- The errors of the tile stores in one tick (assumption 130). -/
def sramTick (s : State) : State :=
  let s := (Config.sramCorrected s.now).foldl (fun s x => sramCorr s (x.1 % 1024) x.2) s
  (Config.sramStruck s.now).foldl (fun s x => sramStrike s (x.1 % 1024) x.2) s

/-- One AON tick: time advances; LS_AVAIL counts (R442); the meter processes the posts it holds (R409); check 10 of a
token that waits for the meter times out (R393); the runtime posts what its receipt rings take (R354); tile stores meet
their errors (R218); a table parked on one engine is parked on all (R288); requests of the host that waited for tokens go
on (R307). Every other time-driven effect has a command of its own. -/
def tick (s : State) : State :=
  hostDrain <| spreadParks <| sramTick <| rtFlush (auditTimeout (availTick { s with now := s.now + 1, fm := { s.fm with posts := [] } }))

end Machine
end Sys2Proof
end

