-- ==== Sys2Proof/Safety.lean ====
section
/-!
DEFINITION. What the statements take as a sound state of the module: the canonical form of every byte store, and the
invariants of registers that the rules hold to.
-/

namespace Sys2Proof
namespace Machine

/-- Module memory is in its canonical form. -/
abbrev memWf (s : State) : Prop := stWf s.mem = true

/-- Module memory, every tile store and every lane register file is in its canonical form. -/
def State.wf (s : State) : Bool :=
  stWf s.mem && s.tiles.all (fun p => stWf p.2.store && stWf p.2.vr)

/-- The context issues the instruction at its PC: nothing holds it, the fetch passes the check of R75 and the map, and none
of the registers listed waits for a load or a lane-engine result (R69, R82, R105, R109, R129). -/
def ready (s : State) (t : Nat) (c : CtxId) (regs : List Reg) : Bool :=
  canIssue (settle s t c) t c && (fetchFault (settle s t c) (getC (settle s t c) t c)).isNone
    && !(regs.any (regBusy (getT (settle s t c) t) c))

/-- The context as the instruction at its PC reads it. -/
def now (s : State) (t : Nat) (c : CtxId) : Ctx := getC (settle s t c) t c

/-- A fence of the context whose work is still to do holds nothing back: there is none, or its work is done (R171). -/
def fenceClear (s : State) (t : Nat) (c : CtxId) : Bool :=
  (now s t c).fence.all (fun f => fenceDone (getT (settle s t c) t) c f.kind (ownId (settle s t c)))

/-- The state in which the instruction at the context's PC accesses memory: a fence whose work is done has ended (R171). -/
def atMem (s : State) (t : Nat) (c : CtxId) : State := endFence (settle s t c) t c

/-- The context issues the instruction at its PC, and that may access memory (R171). -/
def readyMem (s : State) (t : Nat) (c : CtxId) (regs : List Reg) : Bool := ready s t c regs && fenceClear s t c

/-- The state in which an instruction that changed only its context to C has completed (R88). -/
def done (s : State) (t : Nat) (c : CtxId) (C : Ctx) (target : Option Nat) : Host.Outcome State Fault Refusal :=
  .next (finish (setC (settle s t c) t c C) t c target)

/-- The outcome is a next state with a property. -/
def answers (o : Host.Outcome State Fault Refusal) (p : State → Prop) : Prop := ∃ s', o = .next s' ∧ p s'

/-- Two states agree in everything but their tiles. -/
def sameButTiles (s s' : State) : Prop := s' = { s with tiles := s'.tiles }

/-- Two states agree in everything but context c of tile t. -/
def sameButCtx (s s' : State) (t : Nat) (c : CtxId) : Prop :=
  sameButTiles s s' ∧ (∀ u, u ≠ t → getT s' u = getT s u) ∧ getT s' t = tileSetC (getT s t) c (getC s' t c)

/-- The commands run out of a queue: some number of steps empties it, none stopping. -/
def runsOut : Nat → State → Bool
  | 0, s => s.pending.isEmpty
  | n + 1, s =>
    s.pending.isEmpty || (match step s with
      | .next s' => runsOut n s'
      | _ => false)

end Machine
end Sys2Proof
end

