-- ==== Sys2Proof/WellFormed.lean ====
section
/-!
DEFINITION. Which commands are well formed: a command that names what its sender can send. The meanings do not rest on
it; a word's command is well formed where the word spells it (R97, R101, R166).
-/

namespace Sys2Proof

/-- A CSR number that the general CSR instructions take: the two TL_TGLIVE halves have a command of their own (R97,
R166). -/
def csrOk (csr : BitVec 12) : Bool := csr != 0x0D1 && csr != 0x0D2

/-- The symbol errors met on one line: each symbol at most once, each error value nonzero (R239). -/
def errsOk (l : List SymErr) : Bool :=
  l.all (fun e => e.place != .bond || e.val != 0) && ((l.map (fun e => (e.sector, e.sym, e.place))).eraseDups.length == l.length)

/-- The command is well formed. -/
def wellFormed (i : Instr) : Bool :=
  match i with
  | .csrw _ _ _ _ csr => csrOk csr
  | .csrs _ _ _ _ csr => csrOk csr
  | .csrc _ _ _ _ csr => csrOk csr
  | .vshape _ _ _ _ sew alt _ => !alt || sew == 1
  | .vfdivVfsqrt _ _ sqrt _ _ vs2 _ => !sqrt || vs2 == 0
  | .stackCacheRequest _ _ errs => errsOk errs
  | .patrolRead _ _ errs => errsOk errs
  | .tempSample _ readings => readings.length == 10
  | .flitReceive _ bytes => bytes.length == 256
  | .transactionReceive _ errs => errsOk errs
  | .messageReceive errs => errsOk errs
  | .updatePut _ _ errs => errsOk errs
  | .ueReloadDone _ _ errs => errsOk errs
  | .configReady l =>
    (l.width == 4 || l.width == 8 || l.width == 16 || l.width == 1 || l.width == 2) && decide (1 ≤ l.rate) && decide (l.rate ≤ 6)
  | .bar2Read (.bar4 off) len _ => len != 0 && decide (off.val + len ≤ 65536)
  | .bar2Read (.bar2 _) len errs => len != 0 && errsOk errs
  | .bar2Write _ bytes errs => !bytes.isEmpty && errsOk errs
  | .ringFetchDone _ _ errs => errsOk errs
  | .copy _ _ errs => errsOk errs
  | .serviceDelivery _ errs => errsOk errs
  | .qfPost _ _ _ _ errs => errsOk errs
  | .amendFullLoad _ _ errs => errsOk errs
  | .amendAmendment _ _ errs => errsOk errs
  | .svcGenerate _ errs => errsOk errs
  | .svcRegister _ errs => errsOk errs
  | .spdmChallenge _ _ _ nonce => nonce.length == 32
  | .spdmGetMeasurements _ _ _ sign nonce => nonce.length == (if sign then 32 else 0)
  | .illegalWord t c w => (decodeWord t c w.toNat).isNone
  | .addSubLogic .. | .shift .. | .setLessThan .. | .minMax .. | .addwSubw .. | .bitCount .. | .mul ..
  | .divRem .. | .addi .. | .logicImm .. | .shiftImm .. | .lui .. | .lapc .. | .load .. | .store .. | .amo ..
  | .amocas .. | .dzl .. | .rclean .. | .rinval .. | .rcinval .. | .macm .. | .branch .. | .jump .. | .call ..
  | .jr .. | .callr .. | .ret .. | .loop .. | .loopi .. | .lpclr .. | .rspush .. | .rspop .. | .rsclr ..
  | .segset .. | .segnarrow .. | .segrda .. | .segrdl .. | .csrr .. | .tgliveWrite .. | .isync .. | .fenceG ..
  | .fenceB .. | .fenceD .. | .fenceS .. | .yieldw .. | .sret .. | .eret .. | .halt .. | .qwait ..
  | .qwaitTimeout .. | .mxq .. | .mxwait .. | .brk .. | .scall .. | .tgon .. | .tgoff .. | .tbr .. | .tbrz ..
  | .loadResponse .. | .responseFaultEntry .. | .interruptEntry .. | .ctxTimerExpiry .. | .storeCoherenceAck ..
  | .vmvXS .. | .vmvSX .. | .vmvVX .. | .vintOp .. | .vfpOp .. | .vcompare .. | .vmerge .. | .vfcvt ..
  | .vwidenMul .. | .vdot .. | .vreduceInt .. | .vreduceFp .. | .vrgather .. | .vslideup .. | .vslidedown ..
  | .vcompress .. | .vid .. | .vmacm .. | .vload .. | .vstore .. | .vamo .. | .laneGroup .. | .laneFinish ..
  | .vloadResponse .. | .mxIssue .. | .mxPassStart .. | .mxRowExit .. | .mxComplete .. | .mbOpenTimeout ..
  | .mbDrain .. | .drainAck .. | .cacheFill .. | .tokenRefill .. | .rangeOpStart .. | .rangeOpComplete ..
  | .arbiterRound .. | .censusExpiry .. | .pathSwitch .. | .bridgeDown .. | .flitTransmit .. | .nakReplay .. | .laneFail ..
  | .retrainDone .. | .portTrainStep .. | .detectRetry .. | .downRetrainTimer .. | .routeThrough ..
  | .linkResponse .. | .requestTimeout .. | .updateAck .. | .ueReload .. | .ueUnpark .. | .configRequest ..
  | .bar0BadAccess .. | .bar4Write .. | .mirrorRead .. | .mirrorReadTimeout .. | .hostReadCompletion ..
  | .translationCompletion .. | .invalidateRequest .. | .invalLimitExpiry .. | .atsDisable .. | .d3hotEntry ..
  | .d0Return .. | .l0pNarrow .. | .l0pWiden .. | .l1Entry .. | .flr .. | .hotReset .. | .doorbell ..
  | .tileDoorbell .. | .queueEnable .. | .queueDisable .. | .queueResume .. | .queueCancel .. | .queueReset ..
  | .fetchRunStart .. | .ringFetchFault .. | .drainTest .. | .descriptorStart .. | .descriptorComplete ..
  | .launchStart .. | .launchEnd .. | .fenceWrite .. | .fenceClr .. | .svcDone .. | .watchdogExpiry ..
  | .fenceCycleSweep .. | .queueResetDone .. | .letterboxRegister .. | .rringConfig .. | .rringConsWrite ..
  | .errConsWrite .. | .receiptPost .. | .queueWordPost .. | .globalBlockPost .. | .lbHeartbeat ..
  | .quiesceEnd .. | .quiesceTimeout .. | .runtimeLaunch .. | .svcCancel .. | .svcUnregister .. | .admission ..
  | .halfStep .. | .instanceLoss .. | .tileIdleT1 .. | .tileT2Entry .. | .tileWake .. | .opPointChange ..
  | .powerInterval .. | .overPower .. | .overpowerClear .. | .overpowerAutoLift .. | .pwrbrkAssert ..
  | .pwrbrkDeassert .. | .brakeHoldExpiry .. | .brakeInterval .. | .brakeStuck .. | .brakeMask ..
  | .m2EnterReq .. | .m0ReturnReq .. | .m1Entry .. | .m1Exit .. | .provisionId .. | .fwUpdate ..
  | .spdmGetVersion .. | .spdmGetCapabilities .. | .spdmNegotiateAlgorithms .. | .spdmGetDigests ..
  | .spdmGetCertificate .. | .spdmChunkSend .. | .spdmChunkGet .. | .getChallenge .. | .challengeExpiry ..
  | .debugToken .. | .meterAuditAck .. | .debugClose .. | .sessionExpiry .. | .debugHalt .. | .debugResume ..
  | .debugAccess .. | .lifecycle .. | .wipeDone .. | .activityPostSend .. | .activityPostReceive ..
  | .energySample .. | .meterIntervalEnd .. | .postmark .. | .chartMessage .. | .debugEventReceive ..
  | .meterGetChallenge .. | .readLedger .. | .readPostmark .. | .setParam .. | .seal .. | .meterProvision ..
  | .meterFwUpdate .. | .windowPush .. | .meterFault .. | .errorRecordPost .. | .fenceReleaseTest ..
  | .releaseTestDone .. | .lsHeartbeat .. | .lsFailover .. | .lsPeerLost .. | .orphanFence .. | .auxGood ..
  | .mainGood .. | .mainLost .. | .auxLost .. | .startupStepDone .. | .perstAssert .. | .perstDeassert ..
  | .resetHoldDone .. | .hxReset .. | .trimRead .. | .trimWrite .. | .trimSave .. | .trimRestore ..
  | .thermalTrip .. | .thermtripRelease .. | .registerWrite .. | .hostCompletionTimeout .. | .l1Exit ..
  | .pcieAer .. | .dieFatal .. | .instructionFetchFault .. | .spdmUnsupportedRequest .. | .pldmOwnerReset ..
  | .i3cCcc .. | .meterChallengeExpiry .. => true

end Sys2Proof
end

