-- ==== Sys2Proof/Certificates/Slice0/Obligations.lean ====
section
/-!
DEFINITION. The statements about the model, for the provers: one definition per obligation of OBLIGATIONS.json.
-/

open Sys2Proof Sys2Proof.Machine

/-! The queue, the tick, reset -/

/-- A step with command c at the front of the queue is exec of c on the state with the queue's rest. -/
def Obligations.StepRunsFrontCommand : Prop :=
  ∀ (c : Instr) (s : State), step { s with pending := c :: s.pending } = exec c s

/-- A step on an empty queue is one AON tick of the model's own time (the model's choice, assumption 1): time advances by
one. Where no request of the host waits for stack tokens, nothing of memory, dies, Chart, Chart registers or power changes,
of a tile at most which words of its store hold errors that no read has found (R218, assumption 130), and of the links at
most what their update engines hold parked. -/
def Obligations.EmptyQueueTicks : Prop :=
  ∀ (s : State), s.pending = [] → answers (step s) (fun s' => s' = tick s ∧ s'.now = s.now + 1
    ∧ (s.hx.waiting = [] →
      (∀ t, { getT s' t with latent := (getT s t).latent } = getT s t ∧ ∀ w ∈ (getT s t).latent, w ∈ (getT s' t).latent)
      ∧ s'.mem = s.mem ∧ s'.cdies = s.cdies ∧ s'.chart = s.chart ∧ s'.ch = s.ch ∧ s'.pw = s.pw ∧ s'.su = s.su
      ∧ s'.link = { s.link with parking := [], engines := s'.link.engines }))

/-- RESET. No Chart in force, no fence of a domain, every fence counter 0, every queue DISABLED without slots, HEALTH STARTING, every tile in
T3, no error record, the meter's ledger and audit log empty, nothing waiting, nothing sent; every byte store is in its canonical form and module
memory lists no byte. -/
def Obligations.ResetLeaves : Prop :=
  State.reset.chart = none ∧ State.reset.lsFenced = 0 ∧ State.reset.pending = [] ∧ State.reset.out = []
    ∧ (∀ f, getFence State.reset f = 0) ∧ (∀ q, (getQ State.reset q).state = 0 ∧ (getQ State.reset q).held = 0)
    ∧ State.reset.hx.health = 0 ∧ (∀ t, (getT State.reset t).tstate = .t3) ∧ State.reset.rt.models = []
    ∧ (∀ i, (getW State.reset i).errQ = []) ∧ State.reset.fm.ledger = [] ∧ State.reset.fm.log = []
    ∧ State.reset.wf = true ∧ memWf State.reset ∧ State.reset.mem.cells = []

/-! Scalar instructions -/

/-- Every instruction of Table 9 of 03, and `segrda` and `segrdl`, completes when its context is ready, writing its result to rd
and moving the PC as a completed instruction does; nothing else changes. -/
def Obligations.RegisterInstructionsComplete : Prop :=
  ∀ (s : State) (t : TileId) (c : CtxId) (rd rs1 rs2 : Reg),
    let C := now s t c
    let a := xget C rs1
    let b := xget C rs2
    let gives := fun (v : Word) => done s t c (xset C rd v) none
    (ready s t c [rd, rs1, rs2] = true →
      (∀ op, exec (.addSubLogic t c op rd rs1 rs2) s = gives (aluOp op a b))
      ∧ (∀ op, exec (.shift t c op rd rs1 rs2) s = gives (shiftOp op a (b.toNat % 64)))
      ∧ (∀ op, exec (.setLessThan t c op rd rs1 rs2) s = gives (sltOp op a b))
      ∧ (∀ op, exec (.minMax t c op rd rs1 rs2) s = gives (minMaxOp op a b))
      ∧ (∀ op, exec (.addwSubw t c op rd rs1 rs2) s = gives (wOp op a b))
      ∧ (∀ op, exec (.mul t c op rd rs1 rs2) s = gives (mulOp op a b))
      ∧ (∀ op, exec (.divRem t c op rd rs1 rs2) s = gives (divOp op a b)))
    ∧ (ready s t c [rd, rs1] = true →
      (∀ op, exec (.bitCount t c op rd rs1) s = gives (countOp op a))
      ∧ (∀ op imm, exec (.addi t c op rd rs1 imm) s = gives (addiOp op a imm))
      ∧ (∀ op imm, exec (.logicImm t c op rd rs1 imm) s = gives (logicOp op a imm))
      ∧ (∀ op amt, exec (.shiftImm t c op rd rs1 amt) s = gives (shiftOp op a amt.toNat)))
    ∧ (ready s t c [rd] = true →
      (∀ imm, exec (.lui t c rd imm) s = gives (imm.signExtend 64 <<< 16))
      ∧ (∀ imm, exec (.lapc t c rd imm) s = gives (BitVec.ofNat 64 C.pc + 4 * imm.signExtend 64))
      ∧ (∀ n, exec (.segrda t c n rd) s = gives C.sega[n])
      ∧ (∀ n, exec (.segrdl t c n rd) s = gives C.segl[n]))

/-- The results of the arithmetic instructions, in two's complement arithmetic: 32-bit sums sign-extended, high halves of
128-bit products, truncated division in which a divisor of 0 gives all ones and the dividend, signed and unsigned
comparisons (those of the branches too), the bit counts. -/
def Obligations.ArithmeticResults : Prop :=
  ∀ (a b : Word) (imm : BitVec 16),
    wOp .addw a b = ((a + b).setWidth 32).signExtend 64 ∧ wOp .subw a b = ((a - b).setWidth 32).signExtend 64
    ∧ mulOp .mul a b = a * b
    ∧ mulOp .mulh a b = ((a.signExtend 128 * b.signExtend 128) >>> 64).setWidth 64
    ∧ mulOp .mulhu a b = ((a.setWidth 128 * b.setWidth 128) >>> 64).setWidth 64
    ∧ mulOp .mulhsu a b = ((a.signExtend 128 * b.setWidth 128) >>> 64).setWidth 64
    ∧ divOp .div a b = (if b = 0 then BitVec.allOnes 64 else a.sdiv b)
    ∧ divOp .divu a b = (if b = 0 then BitVec.allOnes 64 else a / b)
    ∧ divOp .rem a b = (if b = 0 then a else a.srem b)
    ∧ divOp .remu a b = (if b = 0 then a else a % b)
    ∧ sltOp .slt a b = (if a.slt b then 1 else 0) ∧ sltOp .sltu a b = (if a.ult b then 1 else 0)
    ∧ minMaxOp .min a b = (if a.slt b then a else b) ∧ minMaxOp .maxu a b = (if a.ult b then b else a)
    ∧ addiOp .addi a imm = a + imm.signExtend 64 ∧ addiOp .sltiu a imm = (if a.ult (imm.signExtend 64) then 1 else 0)
    ∧ countOp .clz 0 = 64 ∧ countOp .ctz 0 = 64
    ∧ (branchTaken .beq a b = true ↔ a = b) ∧ (branchTaken .bne a b = true ↔ a ≠ b)
    ∧ branchTaken .blt a b = a.slt b ∧ branchTaken .bge a b = !(a.slt b)
    ∧ branchTaken .bltu a b = a.ult b ∧ branchTaken .bgeu a b = !(a.ult b)
    ∧ (∀ i : Nat, i < 64 → a.getLsbD i = true → (∀ j : Nat, i < j → a.getLsbD j = false) → countOp .clz a = BitVec.ofNat 64 (63 - i))
    ∧ (∀ i : Nat, i < 64 → a.getLsbD i = true → (∀ j : Nat, j < i → a.getLsbD j = false) → countOp .ctz a = BitVec.ofNat 64 i)

/-- x0 reads zero, and a write to it is discarded; a write to any other register changes that register alone. -/
def Obligations.ZeroRegister : Prop :=
  ∀ (C : Ctx) (r q : Reg) (v : Word), xget C 0 = 0 ∧ xset C 0 v = C
    ∧ (r ≠ 0 → xget (xset C r v) r = v) ∧ (q ≠ r → xget (xset C r v) q = xget C q)
    ∧ { xset C r v with x := C.x } = C

/-- A completed instruction of a context outside group mode, with no load or mode write in its shadow: with no transfer and no
active loop that ends at its PC, the PC moves on by 4; a transfer sets it to the target modulo 2^48; nothing else of the
context changes but the marks of what it was waiting for. -/
def Obligations.CompletionMovesPc : Prop :=
  ∀ (s : State) (t : Nat) (c : CtxId) (target : Option Nat),
    let C := getC s t c
    inGroup C = false → C.loads = [] → C.modeWrites = [] → (target = none → atLoopEnd C = false ∨ exl C = true) →
      finish s t c target = setC s t c { C with
        pc := (target.getD (C.pc + 4)) % 2 ^ 48, lastLane := none, fenceOn := false, dbg := if C.dbg = 2 then 1 else C.dbg }

/-- R88, R117. A completed instruction that transfers goes to its target, no count changed. Any other whose PC is the END of
an active loop goes back to START while iterations remain and counts one down; the last iteration leaves the loop inactive;
loop 1 is looked at first, and where it ends loop 0 is looked at as well. While EXL or DFL is 1 the loop unit does nothing. -/
def Obligations.LoopBackEdge : Prop :=
  ∀ (C : Ctx) (p a : Nat),
    let n0 := wfld C.lpcount[0] 31 0
    let n1 := wfld C.lpcount[1] 31 0
    let at0 := n0 ≠ 0 ∧ p = wfld C.lpend[0] 47 0
    let at1 := n1 ≠ 0 ∧ p = wfld C.lpend[1] 47 0
    nextPc C p (some a) = (a % 2 ^ 48, C)
    ∧ ((exl C = true ∨ dfl C = true) → nextPc C p none = ((p + 4) % 2 ^ 48, C))
    ∧ (exl C = false → dfl C = false →
      (at1 → n1 > 1 → nextPc C p none = (wfld C.lpstart[1] 47 0, { C with lpcount := C.lpcount.set 1 (toW (n1 - 1)) }))
      ∧ (at1 → n1 = 1 → at0 → n0 > 1 → nextPc C p none =
        (wfld C.lpstart[0] 47 0, { C with lpcount := (C.lpcount.set 1 0).set 0 (toW (n0 - 1)) }))
      ∧ (at1 → n1 = 1 → at0 → n0 = 1 → nextPc C p none =
        ((p + 4) % 2 ^ 48, { C with lpcount := (C.lpcount.set 1 0).set 0 0 }))
      ∧ (at1 → n1 = 1 → ¬ at0 → nextPc C p none = ((p + 4) % 2 ^ 48, { C with lpcount := C.lpcount.set 1 0 }))
      ∧ (¬ at1 → at0 → n0 > 1 → nextPc C p none = (wfld C.lpstart[0] 47 0, { C with lpcount := C.lpcount.set 0 (toW (n0 - 1)) }))
      ∧ (¬ at1 → at0 → n0 = 1 → nextPc C p none = ((p + 4) % 2 ^ 48, { C with lpcount := C.lpcount.set 0 0 }))
      ∧ (¬ at1 → ¬ at0 → nextPc C p none = ((p + 4) % 2 ^ 48, C)))

/-- FRAME of completion: outside context c of tile t nothing changes, whatever completes there. -/
def Obligations.CompletionFrame : Prop :=
  ∀ (s : State) (t : Nat) (c : CtxId) (C : Ctx) (target : Option Nat),
    sameButCtx s (settle s t c) t c ∧ sameButCtx s (finish (setC s t c C) t c target) t c
    ∧ (∀ d, d ≠ c → getC (finish (setC s t c C) t c target) t d = getC s t d)

/-! Control transfer, loops, return stack -/

/-- The branches, jumps and calls complete: a branch whose comparison holds, and every jump and call, goes to PC plus
four times the offset; `jr` and `callr` go to an aligned register value; `call` and `callr` push PC + 4. -/
def Obligations.TransfersComplete : Prop :=
  ∀ (s : State) (t : TileId) (c : CtxId) (rd rs1 rs2 : Reg) (off16 : BitVec 16) (off26 : BitVec 26),
    let C := now s t c
    let go16 := (BitVec.ofNat 64 C.pc + 4 * off16.signExtend 64).toNat % 2 ^ 48
    let go26 := (BitVec.ofNat 64 C.pc + 4 * off26.signExtend 64).toNat % 2 ^ 48
    let a := (xget C rs1).toNat
    (ready s t c [rs1, rs2] = true → ∀ op, (branchTaken op (xget C rs1) (xget C rs2) = false →
        exec (.branch t c op rs1 rs2 off16) s = done s t c C none)
      ∧ (branchTaken op (xget C rs1) (xget C rs2) = true → livelock C (some go16) = false →
        exec (.branch t c op rs1 rs2 off16) s = done s t c C (some go16)))
    ∧ (ready s t c [] = true → livelock C (some go26) = false → exec (.jump t c off26) s = done s t c C (some go26))
    ∧ (ready s t c [] = true → livelock C (some go26) = false → uniformPath C = true →
        (∀ C', rsPush C (C.pc + 4) = some C' → exec (.call t c off26) s = done s t c C' (some go26)))
    ∧ (ready s t c [rd, rs1] = true → a % 4 = 0 → livelock C (some (a % 2 ^ 48)) = false →
        exec (.jr t c rd rs1) s = done s t c (xset C rd (toW (C.pc + 4))) (some (a % 2 ^ 48)))
    ∧ (ready s t c [rd, rs1] = true → a % 4 = 0 → livelock C (some (a % 2 ^ 48)) = false → uniformPath C = true →
        (∀ C', rsPush C (C.pc + 4) = some C' →
          exec (.callr t c rd rs1) s = done s t c (xset C' rd (toW (C.pc + 4))) (some (a % 2 ^ 48))))
    ∧ (ready s t c [] = true → uniformPath C = true → C.rsCount ≠ 0 → rsTopVal C % 4 = 0 →
        livelock C (some (rsTopVal C)) = false →
        exec (.ret t c) s = done s t c (rsDrop C) (some (rsTopVal C)))

/-- The return stack: a push onto fewer than 16 entries is what the next pop gives back, and a pop after a push restores
count and top of a stack that was not empty. R85: a push onto 16 entries overwrites the oldest and keeps 16, or, where RSTRAP
is set, raises RS_OVERFLOW and changes nothing, a `call` neither writing nor jumping; a pop of an empty stack raises
RS_UNDERFLOW; TL_RSCTL reads TOP and COUNT. -/
def Obligations.ReturnStack : Prop :=
  ∀ (C : Ctx) (v : Nat) (s : State) (t : TileId) (c : CtxId) (rd rs1 : Reg) (off : BitVec 26),
    let D := now s t c
    let raises := fun (i : Instr) (k : Nat) => exec i s = .next (raiseFault (settle s t c) t c (plainFault k 0))
    (C.rsCount < 16 → ∃ C', rsPush C v = some C' ∧ C'.rsCount = C.rsCount + 1 ∧ rsTopVal C' = v % 2 ^ 48
      ∧ (rsDrop C').rsCount = C.rsCount ∧ (C.rsCount ≠ 0 → C.rsTop < 16 → (rsDrop C').rsTop = C.rsTop))
    ∧ (C.rsCount = 16 → C.rstrap = true → rsPush C v = none)
    ∧ (C.rsCount = 16 → C.rstrap = false → ∃ C', rsPush C v = some C' ∧ C'.rsCount = 16 ∧ rsTopVal C' = v % 2 ^ 48
      ∧ C'.rsTop = (C.rsTop + 1) % 16 ∧ ∀ i : Fin 16, i.val ≠ (C.rsTop + 1) % 16 → C'.rs[i] = C.rs[i])
    ∧ (∀ C', rsPush C v = some C' → { C' with rs := C.rs, rsTop := C.rsTop, rsCount := C.rsCount } = C)
    ∧ ((getC s t c).rsCount ≤ 16 → (getC s t c).rsTop < 16 →
      csrRead s t c 0 0x058 = some (BitVec.ofNat 64 ((getC s t c).rsTop * 256 + (getC s t c).rsCount)))
    ∧ (uniformPath D = true →
      (D.rsCount = 16 → D.rstrap = true →
        (ready s t c [] = true → raises (.call t c off) 0x08)
        ∧ (ready s t c [rd, rs1] = true → (xget D rs1).toNat % 4 = 0 → raises (.callr t c rd rs1) 0x08)
        ∧ (ready s t c [rs1] = true → raises (.rspush t c rs1) 0x08))
      ∧ (D.rsCount = 0 → (ready s t c [] = true → raises (.ret t c) 0x09) ∧ (ready s t c [rd] = true → raises (.rspop t c rd) 0x09)))

/-- R86, R87. The loop and return-stack instructions complete outside group mode: `loop` and `loopi` set START, END and COUNT, or skip the
body where the count is 0; `lpclr` makes a loop inactive; a setup of loop 0 while loop 1 is active, of loop 1 beyond the END of an active loop 0, or at
the last instruction of an active body raises LOOP_NEST. `rspush`, `rspop`, `rsclr` work on the return stack. -/
def Obligations.LoopAndStackInstructionsComplete : Prop :=
  ∀ (s : State) (t : TileId) (c : CtxId) (l : Fin 2) (rs : Reg) (cnt : BitVec 11) (len : BitVec 12),
    let C := now s t c
    let n := len.toNat + 1
    let set := fun (k : Nat) => { C with lpstart := C.lpstart.set l (toW ((C.pc + 4) % 2 ^ 48))
                                         lpend := C.lpend.set l (toW ((C.pc + 4 * n) % 2 ^ 48))
                                         lpcount := C.lpcount.set l (toW k) }
    let off := { C with lpcount := C.lpcount.set l 0 }
    let nest := (l = 0 ∧ wfld C.lpcount[1] 31 0 ≠ 0)
      ∨ (l = 1 ∧ wfld C.lpcount[0] 31 0 ≠ 0 ∧ (C.pc + 4 * n) % 2 ^ 48 > wfld C.lpend[0] 47 0)
      ∨ (wfld C.lpcount[0] 31 0 ≠ 0 ∧ C.pc = wfld C.lpend[0] 47 0) ∨ (wfld C.lpcount[1] 31 0 ≠ 0 ∧ C.pc = wfld C.lpend[1] 47 0)
    let refuses := fun (i : Instr) => exec i s = .next (raiseFault (settle s t c) t c (plainFault 0x0A 0))
    (inGroup C = false →
      (nest → (ready s t c [rs] = true → refuses (.loop t c l rs len)) ∧ (ready s t c [] = true → refuses (.loopi t c l cnt len)))
      ∧ (ready s t c [rs] = true → ¬ nest →
        (xget C rs = 0 → exec (.loop t c l rs len) s = done s t c off (some (C.pc + 4 + 4 * n)))
        ∧ (xget C rs ≠ 0 → exec (.loop t c l rs len) s = done s t c (set (min (xget C rs).toNat 0xFFFFFFFF)) none))
      ∧ (ready s t c [] = true → ¬ nest →
        (cnt = 0 → exec (.loopi t c l cnt len) s = done s t c off (some (C.pc + 4 + 4 * n)))
        ∧ (cnt ≠ 0 → exec (.loopi t c l cnt len) s = done s t c (set cnt.toNat) none))
      ∧ (ready s t c [] = true → exec (.lpclr t c l) s = done s t c off none))
    ∧ (uniformPath C = true →
      (ready s t c [rs] = true → (∀ C', rsPush C ((xget C rs).toNat % 2 ^ 48) = some C' →
        exec (.rspush t c rs) s = done s t c C' none)
        ∧ (C.rsCount ≠ 0 → exec (.rspop t c rs) s = done s t c (xset (rsDrop C) rs (toW (rsTopVal C))) none))
      ∧ (ready s t c [] = true → exec (.rsclr t c) s = done s t c { C with rsTop := 0, rsCount := 0 } none))

/-! Segments, CSRs, levels, entries and returns -/

/-- R80. `segset` at supervisor level writes base, permissions and limit of a segment; seg0 instead enters its shadow as a mode
write; at user level it raises PRIVILEGE. `segnarrow` narrows a segment other than 0 and 2 where offset and new limit lie inside
the old limit, else it raises SEG_LIMIT; on seg0 and seg2 it raises ILLEGAL. -/
def Obligations.SegmentInstructions : Prop :=
  ∀ (s : State) (t : TileId) (c : CtxId) (n : SegId) (mask : BitVec 3) (rs1 rs2 : Reg),
    let C := now s t c
    let a := xget C rs1
    let l := xget C rs2
    let old := C.sega[n]
    ready s t c [rs1, rs2] = true →
      (C.sup = true → n ≠ 0 → exec (.segset t c n rs1 rs2) s =
        done s t c { C with sega := C.sega.set n (a &&& toW (csrRw (0x020 + n.val))), segl := C.segl.set n (l &&& toW (csrRw (0x028 + n.val))) } none)
      ∧ (C.sup = true → n = 0 → exec (.segset t c n rs1 rs2) s =
        done s t c { C with modeWrites := C.modeWrites ++
          [{ remain := 3, which := 1, val := a &&& toW (csrRw 0x020) }, { remain := 3, which := 2, val := l &&& toW (csrRw 0x028) }] } none)
      ∧ (C.sup = false → exec (.segset t c n rs1 rs2) s = .next (raiseFault (settle s t c) t c (plainFault 0x01 0)))
      ∧ (n ≠ 0 → n ≠ 2 → a.toNat + l.toNat ≤ wfld C.segl[n] 47 0 →
        exec (.segnarrow t c n mask rs1 rs2) s =
          done s t c { C with
            sega := C.sega.set n (wset (wset old 47 0 ((wfld old 47 0 + a.toNat) % 2 ^ 48)) 62 60
              ((BitVec.ofNat 3 (wfld old 62 60) &&& mask).toNat))
            segl := C.segl.set n (toW l.toNat) } none)
      ∧ (n ≠ 0 → n ≠ 2 → wfld C.segl[n] 47 0 < a.toNat + l.toNat → exec (.segnarrow t c n mask rs1 rs2) s =
        .next (raiseFault (settle s t c) t c { code := 0x04, info := toW (a.toNat % 2 ^ 48), seg := n.val, access := 0, half := false }))
      ∧ ((n = 0 ∨ n = 2) → exec (.segnarrow t c n mask rs1 rs2) s =
        .next (raiseFault (settle s t c) t c (plainFault 0x00 (wordInfo (.segnarrow t c n mask rs1 rs2)))))

/-- `csrr` reads a listed CSR, and the writing instructions give rd the value before the write; an unlisted number is ILLEGAL; a
CSR for supervisors only is PRIVILEGE at user level. A TL_TGLIVE write goes the same way. -/
def Obligations.CsrInstructions : Prop :=
  ∀ (s : State) (t : TileId) (c : CtxId) (rd rs1 : Reg) (n : BitVec 12) (h : Bool),
    let s1 := settle s t c
    let C := now s t c
    let val := fun (k : Nat) => csrRead s1 t c (headWait (getT s1 t)) k
    let wr := fun (op : CsrOp) (k : Nat) (old : Word) => done s t c (xset (csrWrite s1 C op k old (xget C rs1)) rd old) none
    let bad := fun (i : Instr) => Host.Outcome.next (ρ := Refusal) (φ := Fault) (raiseFault s1 t c (plainFault 0x00 (wordInfo i)))
    (ready s t c [rd] = true →
      (∀ v, val n.toNat = some v → (C.sup = true ∨ csrSupOnly n.toNat = false) →
        exec (.csrr t c rd n) s = done s t c (xset C rd v) none)
      ∧ (val n.toNat = none → exec (.csrr t c rd n) s = bad (.csrr t c rd n))
      ∧ ((val n.toNat).isSome = true → C.sup = false → csrSupOnly n.toNat = true →
        exec (.csrr t c rd n) s = .next (raiseFault s1 t c (plainFault 0x01 0))))
    ∧ (ready s t c [rd, rs1] = true →
      (∀ v, val n.toNat = some v → (C.sup = true ∨ (csrSupOnly n.toNat = false ∧ csrUserWrite n.toNat = true)) →
        exec (.csrw t c rd rs1 n) s = wr .csrw n.toNat v ∧ exec (.csrs t c rd rs1 n) s = wr .csrs n.toNat v
        ∧ exec (.csrc t c rd rs1 n) s = wr .csrc n.toNat v)
      ∧ (val n.toNat = none → exec (.csrw t c rd rs1 n) s = bad (.csrw t c rd rs1 n))
      ∧ (∀ op, C.sup = true → ∀ v, val (if h then 0x0D2 else 0x0D1) = some v →
        exec (.tgliveWrite t c op rd rs1 h) s = wr op (if h then 0x0D2 else 0x0D1) v))
/-- A fault taken at level 0 outside group mode, with nothing of the context's accesses or fences outstanding: TL_EPC takes the
faulting PC, TL_ESTATUS the level, TL_ECAUSE and TL_EINFO the fault, EXL is set, the context runs at supervisor level from
VBASE + 32 × code; nothing else changes. -/
def Obligations.FaultEntry : Prop :=
  ∀ (s : State) (t : Nat) (c : CtxId) (f : FaultInfo),
    let C := getC s t c
    C.loads = [] → C.rfaults = [] → C.modeWrites = [] → accessesOut (getT s t) c = false → C.fence = none →
    inGroup C = false → dfl C = false → exl C = false →
      raiseFault s t c f = setC s t c { C with
        epc := toW (C.pc % 2 ^ 48 / 4 * 4), estatus := toW (b2n C.sup), ecause := causeWord f.code 0 f.seg f.access f.half false
        einfo := f.info, esrc := 0, elds := 0, evstart := toW (wfld C.vstart 3 0), vstart := 0, entry := 1, sup := true
        pend := none, run := .running, lastLane := none, fenceOn := false
        pc := (wfld C.vbase 47 12 * 4096 + 32 * f.code) % 2 ^ 48 }

/-- With nothing of the context's accesses or fences outstanding, a fault taken while EXL is set saves into the D registers and
goes to VBASE + 0x800 with DFL set; one taken while DFL is set holds the tile in reset. -/
def Obligations.NestedFaults : Prop :=
  ∀ (s : State) (t : Nat) (c : CtxId) (f : FaultInfo),
    let C := getC s t c
    (C.loads = [] → C.rfaults = [] → C.modeWrites = [] → accessesOut (getT s t) c = false → C.fence = none →
      dfl C = false → exl C = true →
      raiseFault s t c f = setC s t c { C with
        dpc := toW (C.pc % 2 ^ 48 / 4 * 4), dstatus := toW (2 + b2n C.sup), dcause := causeWord f.code 0 f.seg f.access f.half false
        dinfo := f.info, dsrc := 0, dlds := 0, dldpre := (C.dldpre.set 0 C.eldpre[0]).set 1 C.eldpre[1]
        dvstart := toW (wfld C.vstart 3 0), vstart := 0, entry := 3, sup := true
        pend := none, run := .running, lastLane := none, fenceOn := false
        pc := (wfld C.vbase 47 12 * 4096 + 0x800) % 2 ^ 48 })
    ∧ (dfl C = true → (getT (raiseFault s t c f) t).held = true ∧ (getT (raiseFault s t c f) t).endCause = f.code)

/-- `brk` and `scall` enter: with nothing outstanding, at level 0 outside group mode and not at a loop's end, TL_EPC takes
PC + 4 and the context goes on at supervisor level at the vector, or at the TARGET of e(n). `scall` through an entry that is
not valid, or is not for the level, raises SCALL_FAULT. -/
def Obligations.TrapAndScallEnter : Prop :=
  ∀ (s : State) (t : TileId) (c : CtxId) (n : SegId),
    let C := now s t c
    ready s t c [] = true → C.loads = [] → C.modeWrites = [] → accessesOut (getT (settle s t c) t) c = false → C.fence = none →
    inGroup C = false → dfl C = false → exl C = false → atLoopEnd C = false →
      answers (exec (.brk t c) s) (fun s' =>
        let D := getC s' t c
        D.pc = (wfld C.vbase 47 12 * 4096 + 32 * 0x0D) % 2 ^ 48 ∧ D.epc = toW ((C.pc + 4) % 2 ^ 48 / 4 * 4)
        ∧ D.estatus = toW (b2n C.sup) ∧ D.sup = true ∧ D.entry = 1 ∧ D.x = C.x ∧ D.ecause = causeWord 0x0D 1 0 0 false false
        ∧ sameButCtx s s' t c)
      ∧ (C.e[n].toNat.testBit 63 = true → (C.sup = true ∨ C.e[n].toNat.testBit 62 = true) →
        answers (exec (.scall t c n) s) (fun s' =>
          let D := getC s' t c
          D.pc = wfld C.e[n] 47 2 * 4 ∧ D.epc = toW ((C.pc + 4) % 2 ^ 48 / 4 * 4) ∧ D.estatus = toW (b2n C.sup)
          ∧ D.sup = true ∧ D.entry = 1 ∧ D.x = C.x ∧ sameButCtx s s' t c))
      ∧ ((C.e[n].toNat.testBit 63 = false ∨ (C.sup = false ∧ C.e[n].toNat.testBit 62 = false)) →
        exec (.scall t c n) s = .next (raiseFault (settle s t c) t c (plainFault 0x0C 0)))

/-- `sret` and `eret` at supervisor level with no load outstanding and no valid slot in the load-shadow record restore PC, level,
EXL and LN_VSTART from the E registers, outside a parked group; at user level they raise PRIVILEGE; `eret` while DFL is set
restores from the D registers. -/
def Obligations.ReturnsRestore : Prop :=
  ∀ (s : State) (t : TileId) (c : CtxId),
    let C := now s t c
    ready s t c [] = true → C.loads = [] → C.modeWrites = [] → C.rfaults = [] →
      (C.sup = true → dfl C = false → C.elds = 0 → C.tgctl.toNat.testBit 1 = false →
        let back := setC (settle s t c) t c { C with
          sup := C.estatus.toNat.testBit 0, entry := 0, vstart := C.evstart, pc := wfld C.epc 47 2 * 4, lastLane := none
          dbg := if C.dbg = 2 then 1 else C.dbg }
        exec (.sret t c) s = .next back ∧ exec (.eret t c) s = .next back)
      ∧ (C.sup = true → dfl C = true → C.dlds = 0 →
        exec (.eret t c) s = .next (setC (settle s t c) t c { C with
          sup := C.dstatus.toNat.testBit 0, entry := toW (b2n (C.dstatus.toNat.testBit 1)), vstart := C.dvstart
          pc := wfld C.dpc 47 2 * 4, lastLane := none, dbg := if C.dbg = 2 then 1 else C.dbg }))
      ∧ (C.sup = true → dfl C = true → exec (.sret t c) s = .next (raiseFault (settle s t c) t c (plainFault 0x00 (wordInfo (.sret t c)))))
      ∧ (C.sup = false → dfl C = false → exec (.sret t c) s = .next (raiseFault (settle s t c) t c (plainFault 0x01 0))
        ∧ exec (.eret t c) s = .next (raiseFault (settle s t c) t c (plainFault 0x01 0)))

/-- `isync` invalidates the L1I; a fence whose work is done at its issue completes, committing the open entries of the merge
buffer and invalidating the segments its mask names, and one whose work is outstanding completes outside deterministic mode
with that work noted (R171); `mxwait` completes once DONE has reached the value; `yieldw` outside group mode only completes;
`halt` ends the context's launch once its stores are done. -/
def Obligations.SystemInstructionsComplete : Prop :=
  ∀ (s : State) (t : TileId) (c : CtxId) (r : Reg),
    let s1 := atMem s t c
    let T := getT s1 t
    let C := getC s1 t c
    let T1 := if C.fenceOn then T else mbCommit T (fun _ => true)
    let mask := (xget C r).toNat % 256
    let ends := fun (T' : Tile) (m : Nat) => Host.Outcome.next (ρ := Refusal) (φ := Fault)
      (finish (setT s1 t (tileSetC (fenceStores (fenceInvalidate s1 T' C m) c) c C)) t c none)
    let notes := fun (T' : Tile) (k m : Nat) => Host.Outcome.next (ρ := Refusal) (φ := Fault)
      (finish (setT s1 t (tileSetC T' c { C with fence := some { kind := k, ranges := fenceRanges s1 C m } })) t c none)
    (readyMem s t c [] = true →
      exec (.isync t c) s = .next (finish (modT s1 t (fun T => { T with
          l1i := [], reads := T.reads.map (fun q => if q.l1i then { q with stale := true } else q) })) t c none)
      ∧ (fenceDone T c 0 (ownId s1) = true → exec (.fenceG t c) s = ends T 0)
      ∧ (fenceDone T c 0 (ownId s1) = false → T.det = false → exec (.fenceG t c) s = notes T 0 0)
      ∧ (fenceDone T1 c 1 (ownId s1) = true → exec (.fenceB t c) s = ends T1 0)
      ∧ (fenceDone T1 c 1 (ownId s1) = false → T.det = false → exec (.fenceB t c) s = notes T1 1 0)
      ∧ (fenceDone T1 c 2 (ownId s1) = true → uniformPath C = true →
        answers (exec (.halt t c) s) (fun s' => (getC s' t c).run = .halted ∧ s'.mem = s.mem ∧ s'.qf = s.qf
          ∧ ∀ u, u ≠ t.val → getT s' u = getT s u)))
    ∧ (readyMem s t c [r] = true →
      (fenceDone T1 c 2 (ownId s1) = true → exec (.fenceD t c r) s = ends T1 mask)
      ∧ (fenceDone T1 c 2 (ownId s1) = false → T.det = false → exec (.fenceD t c r) s = notes T1 2 mask)
      ∧ (fenceDone T1 c 3 (ownId s1) = true → exec (.fenceS t c r) s = ends T1 mask)
      ∧ (fenceDone T1 c 3 (ownId s1) = false → T.det = false → exec (.fenceS t c r) s = notes T1 3 mask))
    ∧ (ready s t c [] = true → inGroup (getC s t c) = false → exec (.yieldw t c) s = done s t c (now s t c) none)
    ∧ (ready s t c [r] = true → mxReached (now s t c) (xget (now s t c) r).toNat = true →
      exec (.mxwait t c r) s = done s t c (now s t c) none)

/-! Local store, memory accesses -/

/-- LOCAL LOADS. A load through seg3 that passes its checks and meets no poison takes the bytes of the local store, little-endian,
extended by its form, and enters its shadow; local store and memory are unchanged. -/
def Obligations.LocalLoadCompletes : Prop :=
  ∀ (s : State) (t : TileId) (c : CtxId) (op : LoadOp) (rd rs1 : Reg) (seg : Option SegId) (imm : BitVec 12),
    let s1 := atMem s t c
    let C := getC s1 t c
    let T := getT s1 t
    let n := (loadForm op).1
    let o := memOffset C rs1 imm
    readyMem s t c [rd, rs1] = true → useSeg seg rs1 = 3 → checkAccess s1 t C 3 1 (halves o n) = none →
    (∀ h ∈ halves o n, lsPoisoned T (segAddr C 3 h.1) h.2 = false) →
      exec (.load t c op rd rs1 seg imm) s = .next (finish (setT s1 t (addLoad { T with seq := T.seq + 1 } c
        { seq := T.seq + 1, rd := rd.val, shadow := freshShadow rd, kind := .load n (loadForm op).2, pc := C.pc, seg := 3
          pieces := [], waits := [], fault := none
          data := some (loadValue n (loadForm op).2
            (ofLE ((halves o n).flatMap (fun h => stReadN T.store (segAddr C 3 h.1) h.2)))) })) t c none)

/-- LOADS ELSEWHERE. A load through another segment that passes its checks, with fewer than sixteen pending and at most 224
transactions of the tile outstanding, is accepted: one access of its register, width and address pieces joins the context's,
and memory is unchanged. -/
def Obligations.LoadAccepted : Prop :=
  ∀ (s : State) (t : TileId) (c : CtxId) (op : LoadOp) (rd rs1 : Reg) (seg : Option SegId) (imm : BitVec 12),
    let s1 := atMem s t c
    let C := getC s1 t c
    let sgm := useSeg seg rs1
    let n := (loadForm op).1
    let o := memOffset C rs1 imm
    readyMem s t c [rd, rs1] = true → sgm ≠ 3 → checkAccess s1 t C sgm 1 (halves o n) = none → pendingCount C < 16 →
    outstanding (getT s1 t) ≤ 224 →
      ∃ s2 l, exec (.load t c op rd rs1 seg imm) s = .next (finish s2 t c none) ∧ sameButTiles s s2
        ∧ getC s2 t c = { C with loads := C.loads ++ [l] } ∧ l.rd = rd.val ∧ l.kind = .load n (loadForm op).2
        ∧ l.shadow = freshShadow rd ∧ l.pieces.map (fun p => (p.addr, p.n)) = (halves o n).map (fun h => (fabAddr s1 C sgm h.1, h.2))
        ∧ (getT s2 t).store = (getT s t).store

/-- LOCAL STORES. An aligned store through seg3 that passes its checks writes exactly its bytes, and `dzl` zeroes exactly the 128-byte line of
its address: every other byte of the local store, and all of memory, read as before. -/
def Obligations.LocalStoreCompletes : Prop :=
  ∀ (s : State) (t : TileId) (c : CtxId) (sz : Size) (rs rs1 : Reg) (seg : Option SegId) (imm : BitVec 12),
    let s1 := atMem s t c
    let C := getC s1 t c
    let n := sizeBytes sz
    let o := memOffset C rs1 imm
    let a := segAddr C 3 o
    let r := (xget C rs1).toNat
    let z := (xget C rs1 - toW (segAddr C 3 r % 128)).toNat
    let line := segAddr C 3 z
    useSeg seg rs1 = 3 → (∀ e ∈ (getT s t).mx, e.issued = none) → stWf (getT s t).store = true →
      (readyMem s t c [rs, rs1] = true → o % n = 0 → checkAccess s1 t C 3 2 [(o, n)] = none →
        answers (exec (.store t c sz rs rs1 seg imm) s) (fun s' =>
          (∀ x, stRead (getT s' t).store x =
            if a ≤ x ∧ x < a + n then BitVec.ofNat 8 ((xget C rs).toNat / 256 ^ (x - a)) else stRead (getT s t).store x)
          ∧ s'.mem = s.mem ∧ ∀ u, u ≠ t.val → getT s' u = getT s u))
      ∧ (readyMem s t c [rs1] = true → checkAccess s1 t C 3 2 [(z, 128)] = none →
        answers (exec (.dzl t c rs1 seg) s) (fun s' =>
          (∀ x, stRead (getT s' t).store x = if line ≤ x ∧ x < line + 128 then 0#8 else stRead (getT s t).store x)
          ∧ s'.mem = s.mem ∧ ∀ u, u ≠ t.val → getT s' u = getT s u))

/-- STORES ELSEWHERE. An aligned store through another segment that passes its checks enters the merge buffer when it has a free entry:
some entry of its sector then holds its bytes; no memory and no local store changes. -/
def Obligations.StoreAccepted : Prop :=
  ∀ (s : State) (t : TileId) (c : CtxId) (sz : Size) (rs rs1 : Reg) (seg : Option SegId) (imm : BitVec 12),
    let s1 := atMem s t c
    let C := getC s1 t c
    let sgm := useSeg seg rs1
    let n := sizeBytes sz
    let o := memOffset C rs1 imm
    let a := fabAddr s1 C sgm o
    readyMem s t c [rs, rs1] = true → sgm ≠ 3 → o % n = 0 → a % n = 0 → checkAccess s1 t C sgm 2 [(o, n)] = none →
    (getT s t).mb.length < 16 →
      answers (exec (.store t c sz rs rs1 seg imm) s) (fun s' =>
        (∃ e ∈ (getT s' t).mb, e.addr = a / 32 * 32 ∧
          ∀ i, i < n → (e.bytes[a % 32 + i]?).join = some (BitVec.ofNat 8 ((xget C rs).toNat / 256 ^ i)))
        ∧ s'.mem = s.mem ∧ (getT s' t).store = (getT s t).store ∧ ∀ u, u ≠ t.val → getT s' u = getT s u)

/-- LOCAL ATOMICS. An aligned atomic through seg3 that passes its check and meets no poison enters the old value, sign-extended, in
rd's shadow, where rd is not x0, and leaves the new contents its operation gives; `amocas` writes only where the old value equals the compare value. Every other byte reads as
before. -/
def Obligations.LocalAtomicCompletes : Prop :=
  ∀ (s : State) (t : TileId) (c : CtxId) (op : AmoOp) (dw : Bool) (rd rs1 rs2 : Reg) (seg : Option SegId),
    let s1 := atMem s t c
    let C := getC s1 t c
    let T := getT s1 t
    let n := if dw then 8 else 4
    let o := (xget C rs1).toNat
    let a := segAddr C 3 o
    let old := ofLE (stReadN T.store a n)
    let put := fun (v : Nat) (x : Nat) => if a ≤ x ∧ x < a + n then BitVec.ofNat 8 (v / 256 ^ (x - a)) else stRead T.store x
    readyMem s t c [rd, rs1, rs2] = true → useSeg seg rs1 = 3 → o % n = 0 → checkAccess s1 t C 3 3 [(o, n)] = none →
    lsPoisoned T a n = false → (∀ e ∈ T.mx, e.issued = none) → stWf T.store = true →
      answers (exec (.amo t c op dw rd rs1 rs2 seg) s) (fun s' =>
        (∀ x, stRead (getT s' t).store x = put (amoNew op n old (xget C rs2).toNat) x) ∧ s'.mem = s.mem
        ∧ (rd ≠ 0 → ∃ l ∈ (getC s' t c).loads, l.rd = rd.val ∧ l.shadow = 2 ∧ l.data = some (sextW (8 * n) old)))
      ∧ answers (exec (.amocas t c dw rd rs1 rs2 seg) s) (fun s' =>
        (∀ x, stRead (getT s' t).store x =
          if old = (xget C rd).toNat % 2 ^ (8 * n) then put ((xget C rs2).toNat % 2 ^ (8 * n)) x else stRead T.store x)
        ∧ s'.mem = s.mem ∧ (rd ≠ 0 → ∃ l ∈ (getC s' t c).loads, l.rd = rd.val ∧ l.shadow = 2 ∧ l.data = some (sextW (8 * n) old)))

/-- `rclean`, `rinval` and `rcinval` that pass the check of their range are accepted when fewer than four wait: the operation joins the
tile's queue, and the context's count of accepted operations rises by one; memory is unchanged. -/
def Obligations.RangeOpsAccepted : Prop :=
  ∀ (s : State) (t : TileId) (c : CtxId) (rs1 rs2 : Reg) (seg : Option SegId),
    let s1 := atMem s t c
    let C := getC s1 t c
    let sgm := useSeg seg rs1
    let o := (xget C rs1).toNat
    let n := (xget C rs2).toNat
    let took := fun (i : Instr) (kind : Nat) => answers (exec i s) (fun s' =>
      (∃ q, (getT s' t).rangeQ = (getT s t).rangeQ ++ [q] ∧ q.kind = kind ∧ q.addr = fabAddr s1 C sgm o ∧ q.len = n
        ∧ q.ctx = c.val ∧ q.started = false)
      ∧ (getC s' t c).rgIssued = C.rgIssued + 1 ∧ s'.mem = s.mem ∧ (getT s' t).store = (getT s t).store)
    readyMem s t c [rs1, rs2] = true → (getT s t).rangeQ.length < 4 →
      (segCheck C sgm o n 1 = none → took (.rclean t c rs1 rs2 seg) 1)
      ∧ (segCheck C sgm o n 2 = none → took (.rinval t c rs1 rs2 seg) 2 ∧ took (.rcinval t c rs1 rs2 seg) 3)

/-- `macm` with aligned operands that pass their checks and meet no poison adds the product of the two elements to the 128-bit
accumulator, or subtracts it, and steps both address registers by the signed step times the element size. -/
def Obligations.MacmCompletes : Prop :=
  ∀ (s : State) (t : TileId) (c : CtxId) (sz : Size) (uns sub : Bool) (rs1 rs2 : Reg) (sx sy : BitVec 6),
    let s1 := atMem s t c
    let C := getC s1 t c
    let T := getT s1 t
    let n := sizeBytes sz
    let a := (xget C rs1).toNat
    let b := (xget C rs2).toNat
    let v := fun (o : Nat) => macElem n uns (ofLE (stReadN T.store (segAddr C 3 o) n))
    let p := BitVec.ofInt 128 (v a * v b)
    let D := { C with acc := if sub then C.acc - p else C.acc + p }
    let D1 := xset D rs1 (xget C rs1 + sx.signExtend 64 * toW n)
    let D2 := xset D1 rs2 (xget D1 rs2 + sy.signExtend 64 * toW n)
    readyMem s t c [rs1, rs2] = true → a % n = 0 → b % n = 0 → checkAccess s1 t C 3 1 [(a, n)] = none →
    checkAccess s1 t C 3 1 [(b, n)] = none → lsPoisoned T (segAddr C 3 a) n = false → lsPoisoned T (segAddr C 3 b) n = false →
      exec (.macm t c sz uns sub rs1 rs2 sx sy) s = .next (finish (setC s1 t c D2) t c none)

/-- THE CHECK OF AN ACCESS. n bytes at offset o through a segment: without the permission of its kind, PERMISSION; from LIMIT upwards,
SEG_LIMIT; through seg2 below LOW, STACK_LIMIT; else it passes. The default segment is seg2 for x2 and seg1 for any other
register. A load or store that fails the check performs no byte (R78). -/
def Obligations.SegmentCheck : Prop :=
  ∀ (C : Ctx) (seg : SegId) (o n kind : Nat) (r : Reg) (s : State) (t : TileId) (c : CtxId) (op : LoadOp) (sz : Size)
    (rd rs1 : Reg) (g : Option SegId) (imm : BitVec 12) (f : FaultInfo),
    let D := getC (atMem s t c) t c
    let m := memOffset D rs1 imm
    let fails := fun (i : Instr) => answers (exec i s) (fun s' => s' = raiseFault (settle s t c) t c f ∧ s'.mem = s.mem
      ∧ (dfl D = false → (getT s' t).store = (getT s t).store ∧ (getT s' t).mb = (getT s t).mb))
    (permOk C.sega[seg] kind = false → segCheck C seg o n kind = some 0x03)
    ∧ (permOk C.sega[seg] kind = true → (o ≥ 2 ^ 48 ∨ o + n > wfld C.segl[seg] 47 0) → segCheck C seg o n kind = some 0x04)
    ∧ (permOk C.sega[seg] kind = true → o < 2 ^ 48 → o + n ≤ wfld C.segl[seg] 47 0 →
      segCheck C seg o n kind = if seg = 2 ∧ o < wfld C.stklow 47 0 then some 0x05 else none)
    ∧ useSeg none r = (if r = 2 then 2 else 1) ∧ useSeg (some seg) r = seg
    ∧ (readyMem s t c [rd, rs1] = true → checkAccess (atMem s t c) t D (useSeg g rs1) 1 (halves m (loadForm op).1) = some f →
      fails (.load t c op rd rs1 g imm))
    ∧ (readyMem s t c [rd, rs1] = true → checkAccess (atMem s t c) t D (useSeg g rs1) 2 (halves m (sizeBytes sz)) = some f →
      fails (.store t c sz rd rs1 g imm))

/-! Thread groups, waits, events of a context -/

/-- R154, R155. `tgon` outside a group makes threads 0 to min(x[rs1], 128) - 1 live at the next instruction, none of them
yielded and the spin count 0, and 0 threads leave plain mode; `tgoff` ends the running path's threads, and group mode with the
last thread; `tbr` and `tbrz` move the path's threads whose mask bit is set, or clear, to the target and the others to PC + 4;
`yieldw` moves the path to PC + 4. `tgon` in a group, in an entry or with an active loop, and `tgoff`, `tbr` and `tbrz` outside a
group, raise TG_STATE. -/
def Obligations.ThreadGroupInstructionsComplete : Prop :=
  ∀ (s : State) (t : TileId) (c : CtxId) (rs1 : Reg) (vs : VReg),
    let C := now s t c
    let T := getT (settle s t c) t
    let a := (xget C rs1).toNat
    let n := min a 128
    let live : BitVec 128 := BitVec.ofNat 128 (2 ^ n - 1)
    let rest := C.tglive &&& ~~~C.tgpath
    let mask : BitVec 128 := BitVec.ofNat 128 (ofLE (stReadN T.vr (vrAddr c vs) 16))
    let plain := C.tgctl.toNat.testBit 0 = false ∧ exl C = false ∧ wfld C.lpcount[0] 31 0 = 0 ∧ wfld C.lpcount[1] 31 0 = 0
    let moved := fun (m : BitVec 128) (s' : State) => ∀ i, i < 128 → threadPc (getC s' t c) i =
      if C.tgpath.getLsbD i then (if m.getLsbD i then a % 2 ^ 48 else (C.pc + 4) % 2 ^ 48) else threadPc C i
    let mayMove := vs.val < T.vregs ∧ wfld C.vstart 3 0 = 0 ∧ vregPending T c vs = false ∧ a % 4 = 0
      ∧ (wfld C.tgctl 39 16 = 0 ∨ C.pc < a % 2 ^ 48 ∨ wfld C.tgspin 23 0 < wfld C.tgctl 39 16)
    let raises := fun (i : Instr) => exec i s = .next (raiseFault (settle s t c) t c (plainFault 0x1C (wordInfo i)))
    let raisesLane := fun (i : Instr) => exec i s = .next (raiseLane (settle s t c) t c (plainFault 0x1C (wordInfo i)))
    (ready s t c [rs1] = true → plain →
      (n = 0 → exec (.tgon t c rs1) s = done s t c C none)
      ∧ (n ≠ 0 → exec (.tgon t c rs1) s = done s t c { C with
          tgctl := wset C.tgctl 1 0 1, tglive := live, tgpath := live, yielded := 0, tgspin := 0 } none
        ∧ answers (exec (.tgon t c rs1) s) (fun s' => inGroup (getC s' t c) = true ∧ (getC s' t c).tglive = live
          ∧ (getC s' t c).yielded = 0 ∧ (getC s' t c).tgspin = 0
          ∧ ∀ i, i < n → threadPc (getC s' t c) i = (C.pc + 4) % 2 ^ 48)))
    ∧ (ready s t c [] = true → inGroup C = true →
      (rest = 0 → exec (.tgoff t c) s = done s t c { C with tgctl := wset C.tgctl 1 0 0, tglive := 0, tgpath := 0 } none)
      ∧ (rest ≠ 0 → exec (.tgoff t c) s = done s t c { C with tglive := rest } none))
    ∧ (ready s t c [rs1] = true → inGroup C = true → mayMove →
      answers (exec (.tbr t c vs rs1) s) (moved mask) ∧ answers (exec (.tbrz t c vs rs1) s) (moved (~~~mask)))
    ∧ (ready s t c [] = true → inGroup (getC s t c) = true → answers (exec (.yieldw t c) s) (moved 0))
    ∧ (ready s t c [rs1] = true → ¬ plain → raises (.tgon t c rs1))
    ∧ (ready s t c [] = true → inGroup C = false → raises (.tgoff t c))
    ∧ (ready s t c [rs1] = true → inGroup C = false → vs.val < T.vregs → wfld C.vstart 3 0 = 0 →
      raisesLane (.tbr t c vs rs1) ∧ raisesLane (.tbrz t c vs rs1))
    ∧ (encodeWord (.tgon t c rs1) = some (0x39 * 2 ^ 26 + rs1.val * 2 ^ 16 + 14) ∧ encodeWord (.tgoff t c) = some (0x39 * 2 ^ 26 + 15))

/-- Completion in a running group: the threads of the path take the next PC; then the running path is the set of live threads at
one PC, the lowest among threads that have not yielded, or among all live ones where all have. -/
def Obligations.GroupCompletion : Prop :=
  ∀ (s : State) (t : Nat) (c : CtxId) (target : Option Nat),
    let C := getC s t c
    let D := getC (finish s t c target) t c
    let awake := fun (i : Nat) => C.tglive.getLsbD i && !C.yielded.getLsbD i
    inGroup C = true → C.loads = [] → C.modeWrites = [] → C.tglive ≠ 0 →
      (∀ i, i < 128 → threadPc D i = if C.tgpath.getLsbD i then (target.getD (C.pc + 4)) % 2 ^ 48 else threadPc C i)
      ∧ (∀ i, i < 128 → D.tgpath.getLsbD i = (C.tglive.getLsbD i && threadPc D i == D.pc))
      ∧ (∀ i, i < 128 → awake i = true → D.pc ≤ threadPc D i)
      ∧ ((∀ i, i < 128 → awake i = false) → ∀ i, i < 128 → C.tglive.getLsbD i = true → D.pc ≤ threadPc D i)
      ∧ (∃ i, i < 128 ∧ D.tgpath.getLsbD i = true ∧ (awake i = true ∨ ∀ j, j < 128 → awake j = false))
      ∧ D.tglive = C.tglive

/-- `qwait` returns 2 while the Chart asks the tile to leave, 0 where its test succeeds, and else sleeps with its limit; a limit that
has passed, with no entry of the context under way, returns 1. -/
def Obligations.QueueWaits : Prop :=
  ∀ (s : State) (t : TileId) (c : CtxId) (rd rs1 rs2 : Reg) (n q l : Nat),
    let s1 := settle s t c
    let C := now s t c
    let T := getT s1 t
    let k := (xget C rs1).toNat
    let lim := (xget C rs2).toNat
    (ready s t c [rd, rs1, rs2] = true → uniformPath C = true →
      (T.chartLeave = true → exec (.qwait t c rd rs1 rs2) s = done s t c (xset C rd 2) none)
      ∧ (T.chartLeave = false → k < 4096 → qwaitReady s1 T C k = true → exec (.qwait t c rd rs1 rs2) s =
        done s t c (xset { C with qseen := mset C.qseen k s.qf.events } rd 0) none)
      ∧ (T.chartLeave = false → (4096 ≤ k ∨ qwaitReady s1 T C k = false) → answers (exec (.qwait t c rd rs1 rs2) s) (fun s' =>
        (getC s' t c).run = .inQwait rd.val k (if lim = 0 then none else some (s.now + lim)) ∧ (getC s' t c).pc = C.pc
        ∧ s'.mem = s.mem ∧ s'.qf = s.qf)))
    ∧ ((getC s t c).run = .inQwait n q (some l) → l ≤ s.now → (getC s t c).pend = none → exec (.qwaitTimeout t c) s =
        .next (finish (setC s t c (xset { getC s t c with run := .running, qseen := mset (getC s t c).qseen q s.qf.events }
          (Fin.ofNat 32 n) 1)) t c none))

/-- Events of a context. A response that completes an access whose shadow has ended writes its register; a response fault that is due
and an enabled interrupt each enter, saving PC and level; the context timer's expiry sets TL_IPEND.TIMER; an acknowledged
write leaves the tile's list, and a failed one becomes a response fault of its context. -/
def Obligations.ContextEvents : Prop :=
  ∀ (s : State) (t : TileId) (c : CtxId) (k i : Nat) (l : LoadEnt) (f : RespFault) (w : WriteReq) (x : StoreBy),
    let T := getT s t
    let C := getC s t c
    let entered := fun (D : Ctx) (cause info src : Word) (code : Nat) => { D with
      epc := toW (C.pc % 2 ^ 48 / 4 * 4), estatus := toW (b2n C.sup), ecause := cause, einfo := info, esrc := src, elds := 0
      evstart := toW (wfld C.vstart 3 0), vstart := 0, entry := 1, sup := true, rfaults := [], pend := none
      run := RunState.running, lastLane := none, fenceOn := false, pc := (wfld C.vbase 47 12 * 4096 + 32 * code) % 2 ^ 48 }
    let quiet := C.loads = [] ∧ C.modeWrites = [] ∧ C.fence = none ∧ accessesOut T c = false ∧ inGroup C = false ∧ C.run = .running
    (C.loads = [l] → l.data = none → l.fault = none → l.kind ≠ .sched → l.waits = [] → l.shadow = 0 → C.pend = none →
      (∀ p ∈ l.pieces, pieceDone p = true ∧ p.code = 0) → exec (.loadResponse t c 0) s =
        .next (setC s t c (xset { C with loads := [] } (Fin.ofNat 32 l.rd)
          (kindValue l.kind (ofLE (l.pieces.flatMap (fun p => p.bytes.map (fun b => b.getD 0#8))))))))
    ∧ (atBoundary s t c = true → quiet → laneChecking T c = false → exl C = false → dfl C = false → C.rfaults = [f] →
      f.elem = none → exec (.responseFaultEntry t c) s = .next (setC s t c
        (entered C (causeWord f.code 2 f.seg f.access f.half false) (toW (f.addr % 2 ^ 60)) (toW f.pc) f.code)))
    ∧ (atBoundary s t c = true → quiet → C.rfaults = [] → C.lastLane = none → takeable C = some i →
      exec (.interruptEntry t c) s = .next (setC s t c
        (entered { C with ipend := C.ipend &&& ~~~(toW (2 ^ i)) } (causeWord (0x20 + i) 2 0 0 false false) 0 0 (0x20 + i))))
    ∧ (C.timerAt ≠ 0 → C.timerAt ≤ s.now → T.tstate ≠ .t3 →
      exec (.ctxTimerExpiry t c) s = .next (setC s t c { C with timerAt := 0, ipend := C.ipend ||| 1 }))
    ∧ (T.writes[k]? = some w → (∀ d, (getC s t d).pend = none) →
      (w.status = some 0 → exec (.storeCoherenceAck t k) s = .next (setT s t { T with writes := T.writes.eraseIdx k }))
      ∧ (∀ st, w.status = some st → st ≠ 0 → w.who = [x] → cix x.ctx = c → C.run = .running → C.rfaults = [] → w.lane = none →
        answers (exec (.storeCoherenceAck t k) s) (fun s' => (getT s' t).writes = T.writes.eraseIdx k ∧
          (getC s' t c).rfaults = [{ seq := x.seq, code := st, pc := x.pc, addr := x.addr, seg := x.seg, access := 2
                                     half := x.half, elem := none }])))

/-- A word that no instruction has raises ILLEGAL with the word in TL_EINFO; a fetch that fails the seg0 check raises the check's
cause, one at a hole or a control space ADDRESS; one from a fenced tile store enters with FENCED, and one whose response brought a
fault with its cause. -/
def Obligations.IllegalWordsAndFetchFaults : Prop :=
  ∀ (s : State) (t : TileId) (c : CtxId) (w : BitVec 32) (code g o x : Nat),
    let s1 := settle s t c
    let C := now s t c
    let a := segAddr C 0 C.pc
    let at0 := fun (k : Nat) => ({ code := k, info := toW C.pc, seg := 0, access := 0, half := false } : FaultInfo)
    let enters := fun (k : Nat) => exec (.instructionFetchFault t c) s =
      .next (raiseEntry (modC s1 t c (fun C => { C with fetchBad := none })) t c
        { code := k, kind := 2, info := toW a, seg := 0, access := 0, half := false, epc := C.pc, esrc := C.pc
          target := none, vstart := wfld C.vstart 3 0, path := C.tgpath })
    (ready s t c [] = true → decodeWord t c w.toNat = none →
      exec (.illegalWord t c w) s = .next (raiseFault s1 t c (plainFault 0x00 (w.setWidth 64))))
    ∧ (canIssue s1 t c = true →
      (segCheck C 0 C.pc 4 0 = some code → exec (.instructionFetchFault t c) s = .next (raiseFault s1 t c (at0 code)))
      ∧ (segCheck C 0 C.pc 4 0 = none → (placeOf s1 a = .hole ∨ placeOf s1 a = .ctrl g o) →
        exec (.instructionFetchFault t c) s = .next (raiseFault s1 t c (at0 0x07)))
      ∧ (segCheck C 0 C.pc 4 0 = none → placeOf s1 a = .window g o → fenced s1 (g / 64) = true → C.fetchBad = none → enters 0x11)
      ∧ (fetchFault s1 C = none → C.fetchBad = some (x, code) → (x = a ∨ x = a / 32 * 32) → enters code))

/-! The lane engine -/

/-- `vshape` sets LN_VCFG at issue: VL is the request or VLMAX, the rest of the request goes to rd. Every other lane-engine instruction
that passes its checks, and where it accesses memory no fence holds back, enters the queue when it has room, with what it captures: LN_VCFG, the rounding mode, its path and
its scalar operands; LN_VSTART reads 0 from then on. -/
def Obligations.LaneInstructionsIssue : Prop :=
  ∀ (s : State) (t : TileId) (c : CtxId) (rd rs1 rs2 : Reg) (sew : Fin 4) (alt mz m fl : Bool) (vd a b : VReg) (y : VSrc)
    (seg : Option SegId) (sg : SegId) (mode : VMode),
    let s1 := settle s t c
    let T := getT s1 t
    let C := now s t c
    let n := (xget C rs1).toNat
    let vl := min n (8192 / sewBits sew.val)
    let joins := fun (i : Instr) (regs : List Reg) (u v : Word) =>
      ready s t c regs = true → (laneMem i = true → fenceClear s t c = true) → T.lane.length < 16 → (T.lane.filter (fun e => e.ctx == c.val)).length < 8 →
      laneHeld T c i = false → vRegBad T i = false → vConfigBad T C i = false → answers (exec i s) (fun s' =>
        (∃ e, (getT s' t).lane = T.lane ++ [e] ∧ e.ins = i ∧ e.ctx = c.val ∧ e.pc = C.pc ∧ e.s1 = u ∧ e.s2 = v
          ∧ e.sew = wfld C.vcfg 1 0 ∧ e.rnd = wfld C.vcsr 2 0 ∧ e.tg = inGroup C ∧ e.path = C.tgpath
          ∧ e.vl = (if inGroup C then 128 else wfld C.vcfg 26 16) ∧ e.first = wfld C.vstart 3 0 ∧ e.next = e.first)
        ∧ (getC s' t c).vstart = 0 ∧ (getC s' t c).x = C.x ∧ (getT s' t).vr = T.vr ∧ (getT s' t).store = T.store
        ∧ s'.mem = s.mem ∧ (inGroup C = false → atLoopEnd C = false → (getC s' t c).pc = (C.pc + 4) % 2 ^ 48))
    let yr := vsrcRegs y
    let yv := vsrcVal y C
    (ready s t c [rd, rs1] = true → (alt = true → sew = 1) → wfld C.vstart 3 0 = 0 → exec (.vshape t c rd rs1 sew alt mz) s =
      done s t c (xset { C with vcfg := toW (vl * 2 ^ 16 + b2n mz * 32 + b2n alt * 16 + sew.val), vstart := 0 } rd (toW (n - vl))) none)
    ∧ joins (.vmvXS t c rd a) [rd] 0 0 ∧ joins (.vmvSX t c vd rs1) [rs1] (xget C rs1) 0
    ∧ joins (.vmvVX t c vd rs1) [rs1] (xget C rs1) 0
    ∧ (∀ op, joins (.vintOp t c op vd a y m) yr yv 0) ∧ (∀ op, joins (.vfpOp t c op vd a y m) yr yv 0)
    ∧ (∀ op, joins (.vcompare t c op vd a y m) yr yv 0) ∧ joins (.vmerge t c vd a y) yr yv 0
    ∧ joins (.vfcvt t c fl vd a m) [] 0 0 ∧ joins (.vfdivVfsqrt t c fl vd a b m) [] 0 0
    ∧ (∀ op, joins (.vwidenMul t c op vd a b m) [] 0 0) ∧ (∀ op, joins (.vdot t c op vd a b m) [] 0 0)
    ∧ (∀ op, joins (.vreduceInt t c op vd a m) [] 0 0) ∧ (∀ op, joins (.vreduceFp t c op vd a m) [] 0 0)
    ∧ joins (.vrgather t c vd a b m) [] 0 0 ∧ joins (.vslideup t c vd a rs2 m) [rs2] (xget C rs2) 0
    ∧ joins (.vslidedown t c vd a rs2 m) [rs2] (xget C rs2) 0 ∧ joins (.vcompress t c vd a) [] 0 0 ∧ joins (.vid t c vd m) [] 0 0
    ∧ (n % 128 = 0 → (xget C rs2).toNat % 128 = 0 → joins (.vmacm t c fl vd rs1 rs2 m) [rs1, rs2] (xget C rs1) (xget C rs2))
    ∧ joins (.vload t c vd rs1 seg m mode) (rs1 :: modeRegs mode) (xget C rs1) (modeVal mode C)
    ∧ joins (.vstore t c vd rs1 seg m mode) (rs1 :: modeRegs mode) (xget C rs1) (modeVal mode C)
    ∧ (∀ op, joins (.vamo t c op vd a b sg m) [] 0 0)

/-- ELEMENT GROUPS. A group of an element-by-element instruction outside group mode writes each active element of the group with the
operation's result (vElem, vCmpOp, vWidenOp), zeroes inactive elements under MZ, and leaves every other byte of the
registers. -/
def Obligations.LaneElementResults : Prop :=
  ∀ (s : State) (t : TileId) (k : Nat) (e : LaneEnt),
    let T := getT s t
    let w := entBytes e
    let ge := groupElems e.ins e.sew e.tg
    let vd := vDest e.ins
    let here := fun (i : Nat) => e.next * ge ≤ i ∧ i < (e.next + 1) * ge
    let merge := match e.ins with | .vmerge .. => true | _ => false
    T.lane[k]? = some e → laneReady T k e = true → e.tg = false → stWf T.vr = true →
      ((∀ i, (vElem T e i).isSome = true) → answers (exec (.laneGroup t k) s) (fun s' =>
        (∀ i v fl fp, here i → inBody e i = true → (vActive T e i = true ∨ merge = true) → vElem T e i = some (v, fl, fp) →
          vGet (getT s' t) e vd i = v % 2 ^ (8 * w))
        ∧ (∀ i, here i → inBody e i = true → vActive T e i = false → merge = false →
          vGet (getT s' t) e vd i = if e.mz then 0 else vGet T e vd i)
        ∧ (∀ x, (x < vrAddr e.ctx vd + w * (e.next * ge) ∨ vrAddr e.ctx vd + w * ((e.next + 1) * ge) ≤ x) →
          stRead (getT s' t).vr x = stRead T.vr x)
        ∧ (getT s' t).store = T.store ∧ s'.mem = s.mem ∧ ∃ x ∈ (getT s' t).lane, x = { e with next := e.next + 1 }))
      ∧ (∀ t' c' op vd' a y m, e.ins = .vcompare t' c' op vd' a y m → answers (exec (.laneGroup t k) s) (fun s' =>
        ∀ i, here i → inBody e i = true →
          vBit (getT s' t) e vd' i = (if vActive T e i then (vCmpOp op (entFmt e) (entBits e) (vGet T e a i) (vSrc T e y i)).1
            else !e.mz && vBit T e vd' i)))
      ∧ (∀ t' c' op vd' a b m, e.ins = .vwidenMul t' c' op vd' a b m → answers (exec (.laneGroup t k) s) (fun s' =>
        ∀ i, here i → inBody e i = true → vActive T e i = true →
          let p := elemAddr e (pairElem e vd' i).1 (2 * w) (pairElem e vd' i).2
          stReadLE (getT s' t).vr p (2 * w) = (vWidenOp op e (vGet T e a i) (vGet T e b i) (stReadLE T.vr p (2 * w))).1 % 2 ^ (16 * w)))

/-- SCALAR MOVES, REDUCTIONS, PERMUTES, FINISH, outside group mode. The group of `vmv.x.s` reads element 0 and that of `vmv.s.x` writes it; the last group of a reduction writes
vd[0], of a gather, slide or compress its elements, each from the registers as they were; when an instruction finishes
and none is stopped it leaves the queue, `vmv.x.s` writes rd where VL was not 0 and `vmacm` steps its pointers by VL elements. -/
def Obligations.LaneWholeResults : Prop :=
  ∀ (s : State) (t t' : TileId) (c' : CtxId) (k : Nat) (e : LaneEnt) (vd a b : VReg) (rd r1 r2 : Reg) (m fl : Bool),
    let T := getT s t
    let C := getC s t (cix e.ctx)
    let els := bodyElems e (vActive T e)
    let gets := fun (s' : State) (i v : Nat) => vGet (getT s' t) e vd i = v
    T.lane[k]? = some e → e.tg = false →
      (laneReady T k e = true → stWf T.vr = true → e.groups = e.next + 1 →
        (e.ins = .vmvXS t' c' rd a → answers (exec (.laneGroup t k) s) (fun s' => (getT s' t).vr = T.vr ∧
          ∃ x ∈ (getT s' t).lane, x = { e with next := e.next + 1, s1 := if e.next = 0 then sextW (entBits e) (vGet T e a 0) else e.s1 }))
        ∧ (e.ins = .vmvSX t' c' vd r1 → answers (exec (.laneGroup t k) s) (fun s' =>
          gets s' 0 (if e.next = 0 then e.s1.toNat % 2 ^ entBits e else vGet T e vd 0)))
        ∧ (∀ op, e.ins = .vreduceInt t' c' op vd a m → e.vl ≠ 0 → answers (exec (.laneGroup t k) s) (fun s' =>
          gets s' 0 (els.foldl (fun r i => vRedI op (entBits e) r (vGet T e a i)) (vGet T e vd 0) % 2 ^ entBits e)))
        ∧ (∀ op, e.ins = .vreduceFp t' c' op vd a m → e.vl ≠ 0 → answers (exec (.laneGroup t k) s) (fun s' =>
          gets s' 0 ((vRedF T e op a (vGet T e vd 0)).1 % 2 ^ entBits e)))
        ∧ (e.ins = .vrgather t' c' vd a b m → answers (exec (.laneGroup t k) s) (fun s' => ∀ i ∈ els,
          gets s' i (if vGet T e b i < entVlmax e then vGet T e a (vGet T e b i) else 0)))
        ∧ (e.ins = .vslideup t' c' vd a r2 m → answers (exec (.laneGroup t k) s) (fun s' => ∀ i ∈ els,
          gets s' i (if e.s1.toNat ≤ i then vGet T e a (i - e.s1.toNat) else vGet T e vd i)))
        ∧ (e.ins = .vslidedown t' c' vd a r2 m → answers (exec (.laneGroup t k) s) (fun s' => ∀ i ∈ els,
          gets s' i (if i + e.s1.toNat < entVlmax e then vGet T e a (i + e.s1.toNat) else 0)))
        ∧ (e.ins = .vcompress t' c' vd a → answers (exec (.laneGroup t k) s) (fun s' =>
          ∀ j i, (bodyElems e (vBit T e 0))[j]? = some i → gets s' j (vGet T e a i))))
      ∧ (e.groups ≤ e.next → e.pieces = [] → e.fault = none → (∀ x ∈ T.lane, x.stopped = false) → C.pend = none → C.lastLane ≠ some e.seq →
        let n := toW (e.vl * entBytes e)
        let ends := fun (D : Ctx) => exec (.laneFinish t k) s =
          .next (setC (setT s t { T with lane := T.lane.eraseIdx k }) t (cix e.ctx) D)
        let C0 := { C with vstart := 0 }
        (e.ins = .vmvXS t' c' rd a → ends (if e.groups = 0 then C0 else xset C0 rd e.s1))
        ∧ (e.ins = .vmacm t' c' fl vd r1 r2 m → ends (xset (xset C0 r1 (xget C0 r1 + n)) r2 (xget (xset C0 r1 (xget C0 r1 + n)) r2 + n)))
        ∧ (e.ins = .vid t' c' vd m → ends C0))

/-- VECTOR MEMORY through seg3 and elsewhere, outside group mode. A group of a load that passes its checks and meets no poison fills its
active elements from the local store; a unit-stride store writes their bytes and no others; responses fill the elements of
a load from memory. -/
def Obligations.LaneMemory : Prop :=
  ∀ (s : State) (t t' : TileId) (c' : CtxId) (k : Nat) (e : LaneEnt) (vd : VReg) (r1 : Reg) (seg : Option SegId) (m : Bool)
    (mode : VMode),
    let T := getT s t
    let C := getC s t (cix e.ctx)
    let w := entBytes e
    let els := groupActive T e e.next
    let at_ := fun (i : Nat) => segAddr C 3 (vOffset T e i)
    T.lane[k]? = some e → e.tg = false → stWf T.vr = true → stWf T.store = true →
      (laneReady T k e = true → laneSeg e.ins = 3 → vCheck s t C e els = none →
        (e.ins = .vload t' c' vd r1 seg m mode → (∀ i ∈ els, lsPoisoned T (at_ i) w = false) →
          answers (exec (.laneGroup t k) s) (fun s' => (∀ i ∈ els, vGet (getT s' t) e vd i = ofLE (stReadN T.store (at_ i) w))
            ∧ (getT s' t).store = T.store ∧ s'.mem = s.mem))
        ∧ (e.ins = .vstore t' c' vd r1 seg m .unit → (∀ x ∈ T.mx, x.issued = none) →
          answers (exec (.laneGroup t k) s) (fun s' =>
            (∀ i ∈ els, ∀ j, j < w → stRead (getT s' t).store (at_ i + j) = BitVec.ofNat 8 (vGet T e vd i / 256 ^ j))
            ∧ (∀ x, (∀ i ∈ els, x < at_ i ∨ at_ i + w ≤ x) → stRead (getT s' t).store x = stRead T.store x)
            ∧ (getT s' t).vr = T.vr ∧ s'.mem = s.mem)))
      ∧ (e.ins = .vload t' c' vd r1 seg m mode → e.pieces ≠ [] → (∀ p ∈ e.pieces, pieceDone p = true ∧ p.code = 0) →
        (e.pieces.map (·.elem)).Nodup → answers (exec (.vloadResponse t k) s) (fun s' =>
          (∀ p ∈ e.pieces, vGet (getT s' t) e vd p.elem = ofLE (p.bytes.map (fun x => x.getD 0#8)) % 2 ^ (8 * w))
          ∧ (∃ x ∈ (getT s' t).lane, x = { e with pieces := [] }) ∧ (getT s' t).store = T.store ∧ s'.mem = s.mem))

/-! The matrix array -/

/-- THE ARRAY QUEUE. `mxq` accepts a descriptor that passes every check while fewer than sixteen wait: it joins the queue, what other
contexts have written and not fenced hidden from it (R203), and rd takes its sequence number; a failing one raises MX_REJECT
with the reason in MX_REJECT_INFO. The head issues once nothing holds it, at the start cycle of the pass interval; each pass
start counts a pass, makes its weights the active buffer, and seeds the column generators at the first. -/
def Obligations.MatrixQueue : Prop :=
  ∀ (s : State) (t : TileId) (c : CtxId) (rd rs1 : Reg) (cycle r fo o' : Nat) (e : MxEnt),
    let s1 := atMem s t c
    let C := getC s1 t c
    let T := getT s1 t
    let o := (xget C rs1).toNat
    let b := stReadN T.store (segAddr C 3 o) 64
    let E : MxEnt := { ctx := c.val, seq := C.mxIssued + 1, desc := b, base := wfld C.sega[(3 : SegId)] 47 0, issued := none, s0 := 0
                       pass := 0, row := 0, lfsr := [], saturated := 0, flushed := 0, nans := 0, poison := false, spoil := false
                       hidden := [] }
    let U := getT s t
    let before := (U.mx.filter (fun m => m.issued.isSome)).getLast?
    let distinct := (U.mx.map (fun m => (m.ctx, m.seq))).Nodup
    (readyMem s t c [rd, rs1] = true → T.mx.length < 16 → o % 64 = 0 → checkAccess s1 t C 3 1 [(o, 64)] = none →
      lsPoisoned T (segAddr C 3 o) 64 = false →
      (mxCheck T C (permit s1 1) b = none → exec (.mxq t c rd rs1) s =
        .next (finish (setC (modT s1 t (fun T => { T with mx := T.mx ++
          [{ E with hidden := unseen s1 t c (mxSpans E false ++ mxSpans E true) }] }))
          t c (xset { C with mxIssued := C.mxIssued + 1 } rd (toW (C.mxIssued + 1).toNat))) t c none))
      ∧ (mxCheck T C (permit s1 1) b = some (r, fo, o') → exec (.mxq t c rd rs1) s =
        .next (raiseFault (setC (settle s t c) t c { now s t c with mxreject := toW (o' % 2 ^ 32 * 2 ^ 32 + fo * 256 + r) }) t c
          (plainFault 0x0B 0))))
    ∧ (mxHead U = some e → headWait U = 0 → U.tstate = .t0 → U.held = false → distinct →
      let issues := fun (s0 : Nat) =>
        (U.mxShadow.isSome = true → exec (.mxIssue t cycle) s = .next (setT s t { U with mx := U.mx.map (fun m =>
          if m.issued.isNone ∧ m.ctx = e.ctx ∧ m.seq = e.seq then { e with issued := some cycle, s0 := s0 } else m) }))
        ∧ answers (exec (.mxIssue t cycle) s) (fun s' => (∃ x ∈ (getT s' t).mx, x.ctx = e.ctx ∧ x.seq = e.seq ∧ x.desc = e.desc
            ∧ x.issued = some cycle ∧ x.s0 = s0)
          ∧ (getT s' t).store = U.store ∧ s'.mem = s.mem)
      (before = none → issues (cycle + mxWl (mxDesc e.desc)))
      ∧ (∀ p, before = some p → p.issued.getD 0 < cycle →
        issues (max (mxLast p + mxInt (mxDesc p.desc)) (max cycle (mxLast p) + mxWl (mxDesc e.desc)))))
    ∧ (mxNext U = some e → distinct → answers (exec (.mxPassStart t) s) (fun s' =>
        (∃ x ∈ (getT s' t).mx, x.seq = e.seq ∧ x.ctx = e.ctx ∧ x.pass = e.pass + 1
          ∧ x.row = e.row ∧ x.lfsr = (if e.pass = 0 then (List.range 32).map (lfsrSeed (mxDesc e.desc).seed) else e.lfsr))
        ∧ (∃ y, (getT s' t).mxActive = U.mxActive ++ [y] ∧ mxHolds y e e.pass = true)
        ∧ (getT s' t).store = U.store ∧ s'.mem = s.mem))

/-- THE ARRAY'S RESULTS. An output row that leaves writes, for each active column, the rounded sum of R184 to R187 over the descriptor's
operands as it sees them (R203) and the weights of its pass's buffer (R195), and no other byte; a descriptor whose rows have
all left completes: DONE of its context rises by one, it leaves the queue, and its record is written where it asks for one. -/
def Obligations.MatrixResults : Prop :=
  ∀ (s : State) (t : TileId) (e : MxEnt) (rest : List MxEnt),
    let T := getT s t
    let d := mxDesc e.desc
    let g := mxGeoOf d
    let p := e.row / d.m
    let row := e.row % d.m
    let n0 := g.np * (p / mxPk d)
    let at_ := fun (c : Nat) => mxCAddr e d row (n0 + c)
    let m := mxView T.store e
    let w := ((T.mxActive.find? (fun x => mxHolds x e p)).map (·.w)).getD (stEmpty 13)
    let shown := fun (l : List MxEnt) => l.map (fun x => { x with hidden := [] })
    stWf T.store = true →
      (T.mx.find? (fun m => m.issued.isSome && decide (m.row < m.pass * (mxDesc m.desc).m)) = some e → d.sr = false →
        answers (exec (.mxRowExit t) s) (fun s' =>
          (∀ c, c < g.np → mxColActive d p c = true → stReadLE (getT s' t).store (at_ c) g.z =
            (mxElem m w e d p row c (if d.accRead || p % mxPk d != 0 then stReadLE m (at_ c) g.z else 0) none).1 % 256 ^ g.z)
          ∧ (∀ x, (∀ c, c < g.np → mxColActive d p c = true → x < at_ c ∨ at_ c + g.z ≤ x) →
            stRead (getT s' t).store x = stRead T.store x)
          ∧ (∃ x ∈ (getT s' t).mx, x.seq = e.seq ∧ x.ctx = e.ctx ∧ x.row = e.row + 1) ∧ s'.mem = s.mem))
      ∧ (T.mx = e :: rest → e.issued.isSome = true → mxP d * d.m ≤ e.row → e.poison = false → e.spoil = false →
        answers (exec (.mxComplete t) s) (fun s' => shown (getT s' t).mx = shown rest ∧ (d.recEn = false → (getT s' t).mx = rest)
          ∧ (getC s' t (cix e.ctx)).mxDone = (getC s t (cix e.ctx)).mxDone + 1
          ∧ (d.recEn = true → stReadN (getT s' t).store (e.base + d.recOff) 32 = mxRecord e)
          ∧ (∀ x, (d.recEn = false ∨ x < e.base + d.recOff ∨ e.base + d.recOff + 32 ≤ x) →
            stRead (getT s' t).store x = stRead T.store x)
          ∧ s'.mem = s.mem))

/-! Memory hierarchy -/

/-- MERGE BUFFER, CACHES, RANGE ENGINE. An open entry whose time is up commits, committed entries staying as they are, and alone where
no older open entry holds a byte of it; the first committed entry begins its drain; a drain's acknowledgement frees the
entry and sends its bytes; an answered read leaves the tile's list and fills the tile cache, but not where an invalidation
crossed it; a fetch is taken from the tile cache or requested; the oldest range operation starts and, complete, counts DONE
of its context and invalidates what it says. Local store and memory stay as they are. -/
def Obligations.MergeBufferAndCaches : Prop :=
  ∀ (s : State) (t : TileId) (c : CtxId) (k : Nat) (e : MBEnt) (r : ReadReq) (q : RangeOp) (rest : List RangeOp)
    (bs : List Byte) (pois : Bool) (code : Nat),
    let T := getT s t
    let C := getC s t c
    let a := segAddr C 0 C.pc
    let sec := a / 32
    let same := fun (s' : State) => (getT s' t).store = T.store ∧ s'.mem = s.mem
    let whole := fun (m : Cache) => ∀ p ∈ m, ∀ l ∈ p.2, l.data.length = 4 ∧ l.poison.length = 4
    let unasked := fun (x : Nat) => ∀ y ∈ T.reads, y.addr = x → y.owner = .fetch c.val → y.stale = true
    let asks := fun (x n : Nat) => answers (exec (.cacheFill t (.fetch c)) s) (fun s' =>
      (∃ y ∈ (getT s' t).reads, y.owner = .fetch c.val ∧ y.addr = x ∧ y.n = n ∧ y.answer = none) ∧ same s')
    (T.mb[k]? = some e → e.cseq = 0 →
      answers (exec (.mbOpenTimeout t k) s) (fun s' => (∃ x : MBEnt, (getT s' t).mb[k]? = some x ∧ x.cseq ≠ 0 ∧ { x with cseq := 0 } = e)
        ∧ (∀ (n : Nat) (x : MBEnt), T.mb[n]? = some x → x.cseq ≠ 0 → (getT s' t).mb[n]? = some x) ∧ same s')
      ∧ ((T.mb.map (·.seq)).Nodup → (T.mb.take k).all (fun y => y.cseq != 0 || !mbShare e y) = true →
        exec (.mbOpenTimeout t k) s =
          .next (setT s t { T with mb := T.mb.set k { e with cseq := T.seq + 1 }, seq := T.seq + 1 })))
    ∧ (firstCommitted T (fun x => !x.draining) = some e → outstanding T < 256 → behindAtomic T e = false → exec (.mbDrain t) s =
      .next (setT s t { T with mb := T.mb.map (fun x => if x.seq = e.seq then { x with draining := true } else x) }))
    ∧ (firstCommitted T (fun x => x.draining) = some e →
      answers (exec (.drainAck t) s) (fun s' => (getT s' t).mb = T.mb.filter (fun x => x.seq != e.seq)
        ∧ (getT s' t).writes = T.writes ++ [{ seq := e.seq, ord := T.seq + 1, addr := e.addr, bytes := e.bytes, hint := e.hint
                                              who := e.who, lane := none, txns := 1, status := none }] ∧ same s'))
    ∧ (T.reads[k]? = some r → r.answer = some (bs, pois, code) → answers (exec (.cacheFill t (.req k)) s) (fun s' =>
        (getT s' t).reads = T.reads.eraseIdx k ∧ same s'
        ∧ ((code ≠ 0 ∨ r.stale = true) → (getT s' t).tc = T.tc ∧ (getT s' t).l1d = T.l1d ∧ (getT s' t).l1i = T.l1i)
        ∧ (code = 0 → r.stale = false → r.atomic = none → r.tc = true → tcSets T ≠ 0 → whole T.tc →
            cacheLook (getT s' t).tc (tcSets T) (r.addr / 32) = some (bs, pois))))
    ∧ (codePending T (sec * 32) 32 = false →
      (cacheable a = true → (T.det = true ∨ cacheLook T.l1i 64 sec = none) → cacheLook T.tc (tcSets T) sec = none →
        outstanding T < 256 → unasked (sec * 32) → asks (sec * 32) 32)
      ∧ (cacheable a = false → outstanding T < 256 → unasked a → asks a 4)
      ∧ (cacheable a = true → T.det = false → cacheLook T.l1i 64 sec = none → cacheLook T.tc (tcSets T) sec = some (bs, pois) →
        whole T.l1i → answers (exec (.cacheFill t (.fetch c)) s) (fun s' =>
          cacheLook (getT s' t).l1i 64 sec = some (bs, pois) ∧ (getT s' t).reads = T.reads ∧ same s')))
    ∧ (T.rangeQ = q :: rest → (q.started = false → exec (.rangeOpStart t) s =
        .next (setT s t { T with rangeQ := { q with started := true } :: rest }))
      ∧ (q.started = true → q.waits.any (rangeOut s t q.addr q.len) = false → answers (exec (.rangeOpComplete t) s) (fun s' =>
        (getT s' t).rangeQ = rest ∧ (getC s' t (cix q.ctx)).rgDone = (getC s t (cix q.ctx)).rgDone + 1
        ∧ (q.kind = 1 → (getT s' t).tc = T.tc ∧ (getT s' t).l1d = T.l1d)
        ∧ (q.kind ≠ 1 → q.seg3 = false → q.len ≠ 0 →
          (getT s' t).tc = (dropRange T q.addr q.len).tc ∧ (getT s' t).l1d = (dropRange T q.addr q.len).l1d)
        ∧ same s')))

/-- THE HOME. With no symbol error, no poison and no throttle, a tile's read is answered with the bytes memory holds and changes none of
them; a tile's whole-sector write is performed: memory reads as written there and as before elsewhere, and the write is
acknowledged. -/
def Obligations.HomeAccess : Prop :=
  ∀ (s : State) (t : TileId) (k d off : Nat) (x : ReadReq) (w : WriteReq),
    let T := getT s t
    s.mpoison = [] → throttle s d = 0 →
      (T.reads[k]? = some x → x.answer = none → sentBy s (.read t.val x.seq) = false → mustWait s t x.seq x.addr = false →
        requestBlocked s t x.addr = none → isFabric x.addr = false → placeOf s x.addr = .mem d off → x.atomic = none →
        x.hint ≠ 3 → 0 < x.n → x.addr / 128 = (x.addr + x.n - 1) / 128 → cohStatus s x.addr x.n = 0 →
        answers (exec (.stackCacheRequest t (.read k) []) s) (fun s' =>
          (∃ q ∈ (getT s' t).reads, q.seq = x.seq ∧ q.answer = some (stReadN s.mem x.addr x.n, false, 0))
          ∧ s'.mem = s.mem ∧ s'.mpoison = [] ∧ (getT s' t).store = T.store))
      ∧ (T.writes[k]? = some w → w.status = none → sentBy s (.write t.val w.ord) = false → mustWait s t w.ord w.addr = false →
        requestBlocked s t w.addr = none → isFabric w.addr = false → placeOf s w.addr = .mem d off → w.addr % 32 = 0 →
        w.bytes.length = 32 → w.bytes.all Option.isSome = true → cohStatus s w.addr 32 = 0 → stWf s.mem = true →
        answers (exec (.stackCacheRequest t (.write k) []) s) (fun s' =>
          (∀ a, stRead s'.mem a = if w.addr ≤ a ∧ a < w.addr + 32 then ((w.bytes[a - w.addr]?).join).getD 0#8 else stRead s.mem a)
          ∧ (∃ q ∈ (getT s' t).writes, q.ord = w.ord ∧ q.status = some 0) ∧ (getT s' t).store = T.store))

/-- THE STACK CONTROLLER. A due patrol read without errors advances its line, counts what the DRAM dies corrected and changes no byte; a
sample of ten readings shows them in DC_TEMP, the hottest in DC_THERM, doubles refresh from 85 and ends it below 82
degrees, throttles to 25 % from 100 and fences the domain from 105; each tick refills the tokens of a throttled stack. -/
def Obligations.StackController : Prop :=
  ∀ (s : State) (d : CDie) (inner : Nat) (rs : Fin 10 → BitVec 8),
    let D := getD s d
    let n := wfld D.dcScrub 20 0
    let line := wfld D.dcScrub 60 32
    (n ≠ 0 → D.patrolMark + n ≤ s.now → stackOn s d = true → tokensFor s d 4 = true → s.mpoison = [] →
      answers (exec (.patrolRead d inner []) s) (fun s' => (getD s' d).patrolMark = s.now
        ∧ wfld (getD s' d).dcScrub 60 32 = (line + 1) % 2 ^ 29
        ∧ wfld (getD s' d).dcEcc 47 32 = (wfld D.dcEcc 47 32 + inner) % 2 ^ 16 ∧ s'.mem = s.mem ∧ s'.lsFenced = s.lsFenced))
    ∧ (s.su.mainOk = true → s.su.hold = false → s.pw.mstate ≠ 2 →
      answers (exec (.tempSample d (List.ofFn (fun i => some (rs i)))) s) (fun s' =>
        let E := getD s' d
        E.dcTemp0 = toW (ofLE ((List.ofFn rs).take 8)) ∧ E.dcTemp1 = toW (ofLE ((List.ofFn rs).drop 8))
        ∧ (∃ i, wfld E.dcTherm 39 32 = (rs i).toNat) ∧ (∀ i, (rs i).toNat ≤ wfld E.dcTherm 39 32)
        ∧ ((∃ i, 85 ≤ (rs i).toNat) → wfld E.dcTherm 0 0 = 1) ∧ ((∀ i, (rs i).toNat < 82) → wfld E.dcTherm 0 0 = 0)
        ∧ ((∃ i, 100 ≤ (rs i).toNat) → wfld E.dcTherm 2 1 = 2)
        ∧ ((∃ i, 105 ≤ (rs i).toNat) → fenceCause s d = 0 → fenceCause s' d = 1)
        ∧ ((∀ i, (rs i).toNat < 105) → s'.lsFenced = s.lsFenced) ∧ s'.mem = s.mem))
    ∧ (throttle s d = 0 → exec (.tokenRefill d) s = .next s)
    ∧ (throttle s d = 1 → exec (.tokenRefill d) s = .next (setD s d { D with tokens := 5120 }))
    ∧ (2 ≤ throttle s d → exec (.tokenRefill d) s = .next (setD s d { D with tokens := 2560 }))

/-! Fabric and links -/

/-- FABRIC. A bridge that goes down is unusable from both ends and fences its die's fabric; the noted switches of path of a tile to a
die end where no old request is out, and no other; a round of a router's request output serves each input from the front of
its queue within deficit plus census, an emptied input keeping no deficit, and a packet that arrives joins its input with
its census; a round of a response output sends from the next input in turn that has a packet; a census register whose input
is empty expires a tick after its last packet. -/
def Obligations.FabricCommands : Prop :=
  ∀ (s : State) (t : TileId) (i : DieIdx) (e : Fin 8) (j f n : Nat) (d : CDie) (r : Fin 64) (o : Fin 6) (c : Fin 10) (p : PortId)
    (x : PktRef) (y : Packet),
    let key := arbKey d.val r.val o.val
    let A := mget s.link.arbs Arb.reset key
    let R := mget s.link.rspArbs RspArb.reset key
    let expired := fun (k : Nat) => { A with census := A.census.set k 0, out := censusOut (A.census.set k 0) }
    let turned := fun (k : Nat) => ({ waiting := lmod R.waiting k (· - 1), turn := (k + 1) % 8, sent := some k } : RspArb)
    let P := getP s p
    (bridgeTo i e = some j → (8 * i.val + e.val) ∉ s.bridgesDown → answers (exec (.bridgeDown i e) s) (fun s' =>
      egressUsable s' i e = false ∧ egressUsable s' j (farEgress e) = false ∧ i.val ∈ s'.link.fabricFenced
      ∧ s'.mem = s.mem ∧ s'.tiles = s.tiles))
    ∧ answers (exec (.pathSwitch t i) s) (fun s' => s' = { s with link := { s.link with switching := s'.link.switching } }
      ∧ ∀ w, w ∈ s'.link.switching ↔ (w ∈ s.link.switching
        ∧ ¬ (w.1 = t.val ∧ destDie s w.2.1 = some i.val ∧ oldOutstanding s t w.2.1 w.2.2 = false)))
    ∧ answers (exec (.arbiterRound ⟨false, d, r, o⟩ []) s) (fun s' =>
      let B := mget s'.link.arbs Arb.reset key
      s' = { s with link := { s.link with arbs := s'.link.arbs } } ∧ B.census = A.census ∧
      ∀ k, k < 8 →
        let q := A.queue.getD k []
        let m := B.sent.getD k 0
        B.queue.getD k [] = q.drop m ∧ (q.drop m = [] → B.deficit.getD k 0 = 0)
        ∧ (q.drop m ≠ [] → B.deficit.getD k 0 + ((q.take m).map (·.1)).sum = A.deficit.getD k 0 + A.census.getD k 0
          ∧ ∀ x, (q.drop m).head? = some x → B.deficit.getD k 0 < x.1))
    ∧ (packetOf s x = some y → arrivalAt s false y d r o = some (f, n) → f < 8 → A.census.length = 8 →
      answers (exec (.arbiterRound ⟨false, d, r, o⟩ [x]) s) (fun s' =>
        let B := mget s'.link.arbs Arb.reset key
        B.queue.getD f [] = (A.queue.getD f []).drop (B.sent.getD f 0) ++ [(y.beats, n)] ∧ B.census.getD f 0 = censusClamp n))
    ∧ (∀ k, k < 8 → (∀ h, h < k → R.waiting.getD ((R.turn + h) % 8) 0 = 0) → 0 < R.waiting.getD ((R.turn + k) % 8) 0 →
      exec (.arbiterRound ⟨true, d, r, o⟩ []) s =
        .next { s with link := { s.link with rspArbs := mset s.link.rspArbs key (turned ((R.turn + k) % 8)) } })
    ∧ (A.mark.getD c.val 0 < s.now → A.queue.getD c.val [] = [] → exec (.censusExpiry (.router d r o) c) s =
      .next { s with link := { s.link with arbs := mset s.link.arbs key (expired c.val) } })
    ∧ (P.cmark.getD c.val 0 < s.now → (∀ w ∈ P.reqQ, w.1 ≠ c.val) → exec (.censusExpiry (.port p) c) s =
      .next (setP s p { P with census := P.census.set c.val 0 }))

/-- FLITS. An ACTIVE port with nothing to send sends an idle flit with its ACK and credits, and an alignment block after sixteen; a
lone request within its credits and its input's census, or a lone response within its credits, goes out whole in a data flit
that is held, the request with the census of the port. A good data flit with the expected SEQ is taken in and acknowledged; a
bad one returns NAK; a NAK makes the held flits go out again, the fourth in succession of one flit retrains. -/
def Obligations.FlitsAndRetry : Prop :=
  ∀ (s : State) (p : PortId) (i : Nat) (x : Txn) (bytes b : List Byte) (places : List Nat) (good : Bool) (q : Nat),
    let P := getP s p
    let rq := min 255 (P.freeReq / 8)
    let rs := min 255 (P.freeRsp / 8)
    let out := fun (l : List (Nat × List Byte)) => s.out ++ [Out.lanes p.val (laneSymbols l)]
    let Q := countCorr P s.now places
    let sends := fun (y : Txn) => answers (exec (.flitTransmit p) s) (fun s' =>
      let P' := getP s' p
      let slots := (txnSlots y ++ List.replicate 7 nopSlot).take 7
      P'.held = P.held ++ [{ seq := P.txNext, first := 0, req := rq, rsp := rs, slots := slots }]
      ∧ P'.txNext = (P.txNext + 1) % 4096 ∧ P'.reqQ = [] ∧ P'.rspQ = [] ∧ P'.slotQ = []
      ∧ P'.reqCred = P.reqCred - (if isResponse y.type then 0 else txnLen y)
      ∧ P'.rspCred = P.rspCred - (if isResponse y.type then txnLen y else 0)
      ∧ s'.out = out (flitLanes P.lanes P.periods (flitBytes P.txNext 0 P.ackSeq P.ack rq rs 0 slots)))
    P.state = .active →
      (16 ≤ P.periods → exec (.flitTransmit p) s =
        .next { setP s p { P with periods := 0 } with out := out (alignBlock P.lanes P.txNext) })
      ∧ (P.periods < 16 → (getW s (16 + p.val / 2)).wkState.toNat.testBit 2 = false → P.resend = none → P.slotQ = [] →
        (P.reqQ = [] → P.rspQ = [] → exec (.flitTransmit p) s =
          .next { setP s p { P with freeReq := P.freeReq - 8 * rq, freeRsp := P.freeRsp - 8 * rs, periods := P.periods + 1, ack := 0 }
                  with out := out (flitLanes P.lanes P.periods
                    (flitBytes P.txNext 1 P.ackSeq P.ack rq rs 7 (List.replicate 7 nopSlot))) })
        ∧ (P.reqQ = [(i, x)] → P.rspQ = [] → isResponse x.type = false → i < 10 → P.deficit.length = 10 → P.held.length < 512 →
          txnLen x ≤ P.reqCred → txnLen x ≤ P.census.getD i 0 → txnLen x ≤ 7 → sends { x with census := censusOut P.census })
        ∧ (P.reqQ = [] → P.rspQ = [(i, x)] → isResponse x.type = true → i < 10 → P.held.length < 512 → txnLen x ≤ P.rspCred →
          txnLen x ≤ 7 → sends x))
      ∧ (flitDecode bytes = (b, places, good) →
        (good = false → exec (.flitReceive p bytes) s = .next (setP s p { Q with
          ack := 2, ackSeq := (P.rxNext + 4095) % 4096, discarding := true }))
        ∧ (good = true → leAt b 0 2 = P.rxNext → P.rxNext < 4096 → answers (exec (.flitReceive p bytes) s) (fun s' =>
          let P' := getP s' p
          P'.rxNext = (P.rxNext + 1) % 4096 ∧ P'.ack = 1 ∧ P'.ackSeq = P.rxNext ∧ P'.discarding = false
          ∧ P'.reqCred = P.reqCred + 8 * leAt b 4 1 ∧ P'.rspCred = P.rspCred + 8 * leAt b 5 1)))
      ∧ (P.nak = some q →
        (P.nakRun < 4 → exec (.nakReplay p) s = .next (setP s p { P with
          nak := none, resend := if P.held.any (fun h => h.seq == q) then some q else none }))
        ∧ (4 ≤ P.nakRun → answers (exec (.nakReplay p) s) (fun s' => (getP s' p).state = .retrain
          ∧ (getP s' p).retrains = (P.retrains + 1) % 65536 ∧ (getP s' p).mark = s.now ∧ (getP s' p).nakRun = 0
          ∧ (getP s' p).held = P.held ∧ s'.mem = s.mem ∧ s'.tiles = s.tiles)))

/-- TRAINING. A port goes from DETECT through the steps of training to ACTIVE with 4,096 slot credits of each class, by the lanes that
both ends found good, its capability block sent with step 4; a failure starts it again at step 1. A failing lane retrains it;
retraining ends in ACTIVE with its credits granted anew, or in DOWN with its tags completed and what it held lost; DETECT and
DOWN try again when their time has come. -/
def Obligations.PortTraining : Prop :=
  ∀ (s : State) (p : PortId) (good : BitVec 8) (blk : List Byte) (m g r : Nat) (lane : Fin 8) (lost idle : Bool),
    let P := getP s p
    let early := s.now ≤ P.mark + stepLimit P.step
    let gives := fun (i : Instr) (P' : Port) => exec i s = .next (setP s p P')
    let detects := fun (i : Instr) => answers (exec i s) (fun s' => (getP s' p).state = .detect ∧ (getP s' p).step = 1
      ∧ (getP s' p).mark = s.now ∧ (getP s' p).tags = P.tags ∧ s'.out = s.out ++ [.detect p.val] ∧ s'.mem = s.mem)
    ((P.state = .detect ∨ P.state = .training) → early →
      (P.step = 1 → gives (.portTrainStep p good blk true) { P with state := .training, step := 2, mark := s.now })
      ∧ (P.step = 2 → gives (.portTrainStep p good blk true) { P with step := 3, mark := s.now })
      ∧ (P.step = 3 → exec (.portTrainStep p good blk true) s =
        .next (sendBlock (setP s p { P with step := 4, mark := s.now, good := good.toNat }) p good.toNat))
      ∧ (P.step = 4 → checkPartner s p P.good blk = .ok (m, g) → gives (.portTrainStep p good blk true)
        { P with partner := leAt blk 2 2 % 4096, step := 6, mark := s.now, lanes := m, lanesGood := g })
      ∧ (P.step = 6 → answers (exec (.portTrainStep p good blk true) s) (fun s' => getP s' p = { P with
          state := .active, reason := 0, width := popc 8 P.lanes, gen := 1, step := 0, reqCred := 4096, rspCred := 4096 }
        ∧ s'.mem = s.mem ∧ s'.tiles = s.tiles))
      ∧ (P.step ≠ 1 → detects (.portTrainStep p good blk false)))
    ∧ (P.state = .detect → P.mark + 125000 ≤ s.now → detects (.detectRetry p))
    ∧ (P.state = .down → P.mark + 12500000 ≤ s.now → (p.val / 2) ∉ s.link.linkFenced → detects (.downRetrainTimer p))
    ∧ (P.state = .active → P.lanes.testBit lane.val = true → (lost = true ∨ laneErrors P s.now lane.val > 1024) →
      answers (exec (.laneFail p lane lost) s) (fun s' => getP s' p = { P with
          state := .retrain, retrains := (P.retrains + 1) % 65536, mark := s.now, nak := none, nakRun := 0 }
        ∧ s'.mem = s.mem ∧ s'.tiles = s.tiles))
    ∧ (P.state = .retrain →
      (s.now ≤ P.mark + 25000 → checkPartner s p (good.toNat &&& P.lanes) blk = .ok (m, r) →
        answers (exec (.retrainDone p good (some blk) idle) s) (fun s' => (getP s' p).state = .active ∧ (getP s' p).lanes = m
          ∧ (getP s' p).width = popc 8 m ∧ (getP s' p).held = P.held ∧ (getP s' p).resend = P.held.head?.map (·.seq)
          ∧ (getP s' p).reqCred = 4096 ∧ (getP s' p).rspCred = 4096))
      ∧ answers (exec (.retrainDone p good none idle) s) (fun s' => (getP s' p).state = .down
        ∧ (getP s' p).reason = (if idle then 1 else 5) ∧ (getP s' p).tags = [] ∧ (getP s' p).held = []))

/-- LINK TRANSACTIONS. A request for this module that can be performed is performed and leaves the buffer, a MESSAGE joining the messages
taken in; one for another module goes on with TTL less one by the route's port; a response before its time-out frees its
tag and completes its request; a request whose time is out completes with TIMEOUT; a MESSAGE no queue takes is answered ADDR_ERROR. -/
def Obligations.LinkTransactions : Prop :=
  ∀ (s s1 : State) (p : PortId) (x : Txn) (k a b i : Nat) (ch : Chart) (e : TagEnt) (rest : List (Nat × Txn)) (f : Nat),
    let P := getP s p
    (findRx P (fun y => !isResponse y.type && y.dst == ownId s) = some (k, x) →
      (performTxn s p x [] = some s1 → exec (.transactionReceive p []) s = .next (takeRx s1 p k x))
      ∧ (unsupported s x = true → exec (.transactionReceive p []) s = .next (takeRx (refuse s p x 5) p k x))
      ∧ (unsupported s x = false → x.type = 4 → answers (exec (.transactionReceive p []) s) (fun s' =>
        s'.link.messages = s.link.messages ++ [(p.val, x)] ∧ (getP s' p).rxQ = P.rxQ.eraseIdx k ∧ s'.mem = s.mem)))
    ∧ (findRx P (fun y => y.dst != ownId s) = some (k, x) → s.chart = some ch → isResponse x.type = false →
      ((ch.ports[p.val]?).map (fun y => y.flags % 2)).getD 0 = 1 → x.ttl ≠ 0 → mget ch.routes (255, 255) x.dst = (a, b) →
      a < 24 → a ≠ p.val → (getP s a).state = .active →
      queuedSlots (getP s a).reqQ + txnLen x ≤ (getP s a).reqCred → answers (exec (.routeThrough p) s) (fun s' =>
        (getP s' a).reqQ = (getP s a).reqQ ++ [(transitInput p a, { x with ttl := x.ttl - 1 })] ∧ (getP s' p).rxQ = P.rxQ.eraseIdx k ∧ s'.mem = s.mem))
    ∧ (findRx P (fun y => isResponse y.type && y.dst == ownId s) = some (k, x) → badResponse x = false →
      (getP s (x.tag / 2048)).tags.find? (fun y => y.index == x.tag % 2048) = some e →
      timedOut s (x.tag / 2048) e = false → answers (exec (.linkResponse p) s) (fun s' =>
        (getP s' (x.tag / 2048)).tags = (getP s (x.tag / 2048)).tags.filter (fun y => y.index != x.tag % 2048)
        ∧ (∀ t n, e.owner = .write t n → ∀ w ∈ (getT s' t).writes, w.ord = n → w.status = some (causeOfStatus x.status))
        ∧ s'.mem = s.mem))
    ∧ (e ∈ P.tags → e.index = i → timedOut s p e = true →
      answers (exec (.requestTimeout p i) s) (fun s' => e ∉ (getP s' p).tags
        ∧ (∀ t n, e.owner = .write t n → ∀ w ∈ (getT s' t).writes, w.ord = n → w.status = some 0x12) ∧ s'.mem = s.mem))
    ∧ (s.link.messages = (f, x) :: rest → fetchEnt s (x.addr % 4096) = none →
      exec (.messageReceive []) s = .next (refuse { s with link := { s.link with messages := rest } } f x 1))

/-! Update engines -/

/-- UPDATE ENGINES. A write of UE_RELOAD or UE_UNPARK by one who may make it reaches every engine's tables of its mask; a reload takes
the record and is VALID exactly where no item of R284 fails; a put that has been judged leaves the waiting list with its
RESULT, FENCED on a fenced link die and NOT_VALID where its table is not; its ack carries RESULT, FALLBACKS and t. -/
def Obligations.UpdateEngines : Prop :=
  ∀ (s s1 : State) (a : Agent) (mask : BitVec 64) (l : LDie) (k : Fin 64) (n re fb t st : Nat) (y : CohRd) (x : Put)
    (rest : List (Put × Nat × Nat × Nat × Nat)) (q idx m p : Nat) (z : Txn),
    let E := getE s l
    (ueWriter s a = true →
      answers (exec (.ueReload a mask) s) (fun s' =>
        ueTab (getE s' l) k = { ueTab E k with loading := (ueTab E k).loading || mask.getLsbD k.val } ∧ s'.mem = s.mem)
      ∧ answers (exec (.ueUnpark a mask) s) (fun s' =>
        ueTab (getE s' l) k = { ueTab E k with parked := (ueTab E k).parked && !mask.getLsbD k.val } ∧ s'.mem = s.mem))
    ∧ ((ueTab E k).loading = true → cohReadFrom s (16 + l.val) (wfld s.link.ueDir 47 13 * 8192 + 128 * k.val) 128 2 true [] = some y →
      y.st = 0 → y.pois.any id = false → answers (exec (.ueReloadDone l k []) s) (fun s' =>
        ueTab (getE s' l) k = { ueTab E k with
          rec_ := y.bytes, valid := ueReason y.bytes == 0, reason := ueReason y.bytes, loading := false }))
    ∧ (E.waiting[n]? = some x → (getW s (16 + l.val)).wkState.toNat.testBit 4 = false →
      let ends := fun (s0 : State) (re fb t : Nat) => exec (.updatePut l n []) s = .next (setE s0 l { getE s0 l with
        waiting := (getE s0 l).waiting.eraseIdx n, done := (getE s0 l).done ++ [(x, 0, re, fb, t)] })
      (l.val ∈ s.link.linkFenced → ends s 7 0 (ueStep (ueTab E x.table).rec_))
      ∧ (l.val ∉ s.link.linkFenced → (E.waiting.take n).any (fun z => putsMeet E x z) = false →
        (judgePut s l x [] = some (re, fb, t, s1) → ends s1 re fb t)
        ∧ ((ueTab E x.table).loading = false → (ueTab E x.table).valid = false → ends s 3 0 (ueStep (ueTab E x.table).rec_))))
    ∧ (E.done = (x, st, re, fb, t) :: rest → x.src = .dma q idx m → 
      exec (.updateAck l) s = .next (dmaAnswer (setE s l { E with done := rest })
        { q := q, idx := idx, k := m, st := st, bytes := [], pois := [], operand := toLE 1 re ++ toLE 1 fb ++ [0#8, 0#8] ++ toLE 4 t }))
    ∧ (E.done = (x, st, re, fb, t) :: rest → x.src = .port p z → exec (.updateAck l) s =
      .next (sendResponse (setE s l { E with done := rest }) p (responseOf z st [] 0 (toLE 1 re ++ toLE 1 fb ++ [0#8, 0#8] ++ toLE 4 t))))

/-! Host attachment -/

/-- HOST REQUESTS. Until the function is ready a configuration request is answered with Request Retry Status; then a read gives the
register and a write changes it, BAR size bits staying zero, ATS Control Enable and the D-state being changed only by their own commands.
Bad BAR0 accesses are counted. Host requests are performed in their order of arrival: one behind a write that waits for tokens waits
with it; a mirror read is answered by its die or times out with all ones; BAR2 reads give memory's bytes or Completer Abort, refused
writes are counted; BAR4 writes are discarded and its reads return the window; HX_BAR2 moves the BAR2 slice. -/
def Obligations.HostRequests : Prop :=
  ∀ (s t : State) (r : CfgReg) (v : BitVec 64) (n rate : Nat) (pf read wide : Bool) (off len : Nat) (o : Fin 67108864) (bytes : List Byte)
    (at_ i : Nat) (rest : List (Nat × Nat × Nat)) (b : Fin 65536) (w0 : HostWait) (ws : List HostWait) (y : CohRd) (z : Nat × State),
    let C := s.hx.cfg
    let seen := traffic s
    let cfg := fun (c : PciCfg) => exec (.configRequest r (some v)) s =
      .next { seen with hx := { seen.hx with cfg := c }, out := s.out ++ [.cpl .ok []] }
    let asked := fun (w : HostWait) => ({ seen with hx := { seen.hx with waiting := s.hx.waiting ++ [w] } } : State)
    let ends := fun (u : State) => (.next { u with hx := { u.hx with waiting := [] } } : Host.Outcome State Fault Refusal)
    (s.hx.ready = false → ∀ w, exec (.configRequest r w) s = .next { s with out := s.out ++ [.cpl .rrs []] })
    ∧ (s.hx.ready = true →
      exec (.configRequest r none) s = .next { seen with out := s.out ++ [.cpl .ok (toLE 8 (cfgRead seen r))] }
      ∧ cfgRead s .vendorId = 0x1F3D ∧ cfgRead s .deviceId = 0x1024 ∧ cfgRead s .classCode = 0x120000
      ∧ (r ∈ [CfgReg.vendorId, .deviceId, .revisionId, .classCode, .subsystemVendor, .subsystemId, .headerType, .interruptPin,
        .interruptLine, .deviceCapabilities, .deviceCapabilities2, .deviceCapabilities3, .linkStatus, .pmCapabilities, .serialNumberLow,
        .serialNumberHigh, .atsCapability, .pasidCapability] → cfg C)
      ∧ (r = .bar0 → cfg { C with bar0 := v.toNat - v.toNat % 2 ^ 26 }) ∧ (r = .bar2 → cfg { C with bar2 := v.toNat - v.toNat % 2 ^ 30 })
      ∧ (r = .bar4 → cfg { C with bar4 := v.toNat - v.toNat % 2 ^ 16 })
      ∧ (r = .linkControl → answers (exec (.configRequest r (some v)) s) (fun s' =>
        s'.hx.cfg = { C with aspmL1 := v.getLsbD 1, l0p := v.getLsbD 0 }
        ∧ (v.getLsbD 0 = false → s.hx.lstate ≠ .down → s'.hx.width = s.hx.maxWidth ∧ s'.hx.lstate = .l0)))
      ∧ (r = .powerState ∨ (r = .atsControl ∧ v.getLsbD 15 = false) → cfg C)
      ∧ (r = .atsControl → v.getLsbD 15 = true → cfg { C with ats := true }))
    ∧ (s.hx.ready = false → s.su.hold = false → s.su.perst = false → s.su.mainOk = true →
      exec (.configReady ⟨n, rate, pf⟩) s = .next { s with
        hx := { s.hx with
          ready := true, drsSent := true, lstate := .l0, width := n, maxWidth := n, lastTraffic := s.now, rate := rate, flit := decide (rate = 6) || pf }
        out := s.out ++ (if s.hx.drsSent then [] else [.drs]) })
    ∧ (hostLive s = true → ((len ≠ 4 ∧ len ≠ 8) ∨ off % len ≠ 0) → exec (.bar0BadAccess read off len) s =
      .next { seen with hx := { seen.hx with bar0Bad := (s.hx.bar0Bad + 1) % 65536 }, out := s.out ++ (if read then [.cpl .ur []] else []) })
    ∧ (hostLive s = true → s.hx.waiting = w0 :: ws → o.val % (if wide then 8 else 4) = 0 →
      hostPerform (asked (.bar0 o.val wide)) w0 = none → exec (.mirrorRead o wide) s = .next (asked (.bar0 o.val wide)))
    ∧ (hostLive s = true → s.hx.waiting = [] → o.val % (if wide then 8 else 4) = 0 →
      let al := o.val / 8 * 8
      let (d, c) := mirrorPlace al
      let u := asked (.bar0 o.val wide)
      let gives := fun (x : List Byte) => exec (.mirrorRead o wide) s = ends (emit u (.cpl .ok x))
      (o.val < 0x2000000 → gives (regBytes (bar0Reg u al) o.val wide))
      ∧ (0x2000000 ≤ o.val → s.hx.stopped = true → gives (List.replicate (if wide then 8 else 4) 0xFF#8))
      ∧ (0x2000000 ≤ o.val → s.hx.stopped = false → dieAnswers u d c = true → gives (regBytes (ctrlReg u d c) o.val wide))
      ∧ (0x2000000 ≤ o.val → s.hx.stopped = false → dieAnswers u d c = false → exec (.mirrorRead o wide) s =
        ends { u with hx := { u.hx with mirror := s.hx.mirror ++ [(d, if wide then 8 else 4, s.now)] } }))
    ∧ (s.hx.mirror = (i, n, at_) :: rest → at_ + 25 ≤ s.now → exec .mirrorReadTimeout s =
      .next { s with hx := { s.hx with mirror := rest, mirrorMiss := (s.hx.mirrorMiss + 1) % 65536 }
                     out := s.out ++ [.cpl .ok (List.replicate n 0xFF#8)] })
    ∧ (hostLive s = true → s.hx.waiting = [] →
      let a := s.hx.slice * 0x40000000 + off
      let fits := fun k => k ≤ 512 ∧ off + k ≤ 0x40000000
      let w := HostWait.read a len [] (bar2Place s off len).2
      let x := HostWait.write a bytes [] (bar2Place s off bytes.length).2
      ((s.hx.stopped = true ∨ ¬ fits len) → exec (.bar2Read (.bar2 off) len []) s = ends (abortRead (asked w)))
      ∧ (s.hx.stopped = false → fits len → cohReadFrom (asked w) 31 a len 0 false [] = some y →
        (y.st ≠ 0 → exec (.bar2Read (.bar2 off) len []) s = ends (abortRead y.s))
        ∧ (y.st = 0 → y.pois.any id = false → exec (.bar2Read (.bar2 off) len []) s = ends (emit y.s (.cpl .ok y.bytes))))
      ∧ ((s.hx.stopped = true ∨ ¬ fits bytes.length) → exec (.bar2Write off bytes []) s = ends (dropWrite (asked x)))
      ∧ (s.hx.stopped = false → fits bytes.length →
        ((statusFrom (asked x) 31 a bytes.length).1 ≠ 0 → exec (.bar2Write off bytes []) s = ends (dropWrite (statusFrom (asked x) 31 a bytes.length).2))
        ∧ ((statusFrom (asked x) 31 a bytes.length).1 = 0 → permit (asked x) 3 = false → exec (.bar2Write off bytes []) s = ends (dropWrite (asked x)))
        ∧ ((statusFrom (asked x) 31 a bytes.length).1 = 0 → permit (asked x) 3 = true →
          (cohWriteB (asked x) a bytes 0 [] = some z → exec (.bar2Write off bytes []) s = ends z.2)
          ∧ (cohWriteB (asked x) a bytes 0 [] = none → exec (.bar2Write off bytes []) s = .next (asked x)))))
    ∧ (hostLive s = true → exec (.registerWrite .host (.bar0 ⟨0x1000008, by decide⟩) true v) s = .next { seen with
        hx := { seen.hx with slice := v.toNat / 2 ^ 30 % 2 ^ 18 } }
      ∧ exec .bar4Write s = .next seen
      ∧ exec (.bar2Read (.bar4 b) len []) s =
        .next (emit seen (.cpl .ok ((List.range len).map (fun i => s.fm.window.getD (b.val + i) 0#8)))))

/-- HOST TRANSLATIONS AND THE FUNCTION'S STATES. A good Translation Completion enters the cache of 2,048, a failed one rejects its
descriptor; an Invalidate Request leaves no matching translation in the cache or with a descriptor that is not sending, the
thirty-third is counted; at INVAL_LIMIT the descriptors that it waits for stop; clearing ATS discards every translation; a piece of the
constants of a LAUNCH arrives, or the LAUNCH ends with HOST_ERROR. D3hot sends nothing and D0 sends what it held, in order; L0p and L1
move the link; FLR and hot reset end readiness; AER bits are logged, the first uncorrectable one with its header. -/
def Obligations.HostTranslations : Prop :=
  ∀ (s : State) (r : TransReq) (d : Desc) (base size target b z itag n : Nat) (rd wr : Bool) (pasid : Option Nat)
    (i : Inval) (q idx k : Nat) (data : List Byte) (cor unc : BitVec 32) (hd : BitVec 128) (w id : Nat),
    let h := s.hx
    let probe : Inval := { itag := itag, pasid := pasid, base := base, size := size, at_ := s.now, waits := [] }
    let hx := fun (f : HxSt) => (.next { s with hx := f } : Host.Outcome State Fault Refusal)
    (h.treqs.find? (fun x => x.id == n) = some r → getDesc s r.q r.idx = some d → r.stale = false →
      (keptPage r.addr base size = some (b, z) → overtaken r b z = false →
        answers (exec (.translationCompletion n true base size target rd wr) s) (fun s' => s'.mem = s.mem
          ∧ s'.hx.cache = (h.cache ++ [({ pasid := queuePasid (getQ s r.q), base := b, size := z, target := target + (b - base), rd := rd, wr := wr } : TransEnt)]).drop
              (h.cache.length + 1 - 2048)))
      ∧ answers (exec (.translationCompletion n false base size target rd wr) s) (fun s' =>
        ∃ e, getDesc s' r.q r.idx = some e ∧ e.phase = .faulted ∧ e.status = 0x22)
      ∧ answers (exec (.hostCompletionTimeout true n) s) (fun s' =>
        ∃ e, getDesc s' r.q r.idx = some e ∧ e.phase = .faulted ∧ e.status = 0x22))
    ∧ (h.invals.length < 32 → answers (exec (.invalidateRequest itag pasid base size) s) (fun s' =>
        (∀ e ∈ s'.hx.cache, e ∈ h.cache ∧ invMatches probe e = false)
        ∧ (∀ x ∈ s'.qf.descs, (∀ y ∈ s.qf.descs, y.q = x.q → y.idx = x.idx → sending s y = false) → ∀ e ∈ x.trans, invMatches probe e = false)
        ∧ s'.mem = s.mem))
    ∧ (32 ≤ h.invals.length → answers (exec (.invalidateRequest itag pasid base size) s) (fun s' =>
        s'.hx = { (traffic s).hx with invOverflow := (h.invOverflow + 1) % 65536 } ∧ s'.qf = s.qf))
    ∧ (h.invals.find? (fun x => x.itag == itag) = some i → i.at_ + h.invalLimit ≤ s.now →
      answers (exec (.invalLimitExpiry itag) s) (fun s' => s'.hx = h ∧ ∀ x ∈ s'.qf.descs, (x.q, x.idx) ∈ i.waits →
        invalMet s x.q x.idx = false → x.phase ≠ .done → x.copy.stop.isSome = true))
    ∧ (h.cfg.ats = true → answers (exec .atsDisable s) (fun s' => s'.hx.cfg.ats = false ∧ s'.hx.cache = []
        ∧ ∀ x ∈ s'.qf.descs, x.trans = [] ∧ (x.phase = .ready → x.trOk = true)))
    ∧ (h.hreads.find? (fun x => x.1 == id) = some (id, .consts q idx k) → getDesc s q idx = some d → d.copy.stop = none →
      answers (exec (.hostReadCompletion id true data) s) (fun s' =>
        (∃ e, getDesc s' q idx = some e ∧ e.consts = d.consts.set k (some data) ∧ e.phase = d.phase)
        ∧ s'.hx.hreads = h.hreads.filter (fun x => x.1 != id))
      ∧ (dtype d = 2 → d.phase = .ready → (getQ s q).state ≠ 0 → (getQ s q).state ≠ 5 →
        constsOut { s with hx := { h with hreads := h.hreads.filter (fun x => x.1 != id) } } q idx = false →
        ∀ o, (o = .hostReadCompletion id false data ∨ o = .hostCompletionTimeout false id) →
        answers (exec o s) (fun s' => (∃ e, getDesc s' q idx = some e ∧ e.phase = .done ∧ e.status = 0x30)
          ∧ (getQ s' q).state = 4 ∧ (getQ s' q).reason = 0x30)))
    ∧ (h.ready = true → answers (exec .d3hotEntry s) (fun s' => s'.hx = { h with d3hot := true } ∧ canSend s' = false ∧ s'.mem = s.mem))
    ∧ (h.d3hot = true → exec .d0Return s = .next (h.deferred.foldl resend (requeue { s with hx := { h with d3hot := false, deferred := [] } })))
    ∧ (h.cfg.l0p = true → (h.lstate = .l0 ∨ h.lstate = .l0p) → (w = 8 ∨ w = 4 ∨ w = 2) → w < h.width →
      exec (.l0pNarrow w) s = hx { h with lstate := .l0p, width := w })
    ∧ (h.lstate = .l0p → exec .l0pWiden s = hx { h with lstate := .l0, width := h.maxWidth })
    ∧ (h.cfg.aspmL1 = true → (h.lstate = .l0 ∨ h.lstate = .l0p) → h.lastTraffic + 1250 ≤ s.now → exec .l1Entry s = hx { h with lstate := .l1 })
    ∧ (h.lstate = .l1 → exec .l1Exit s = hx { h with lstate := if h.width < h.maxWidth then .l0p else .l0, lastTraffic := s.now })
    ∧ (h.ready = true → answers (exec .flr s) (fun s' => s'.hx.ready = false ∧ s'.hx.cfg = HxSt.reset.cfg ∧ s'.hx.cache = [] ∧ s'.hx.width = h.width
        ∧ s'.qf.queues = [] ∧ s'.qf.fences = [] ∧ s'.qf.lb = 0 ∧ ∀ j, (getW s' j).errQ = (getW s j).errQ))
    ∧ (s.su.mainOk = true → s.su.perst = false → answers (exec .hotReset s) (fun s' => s'.hx.ready = false ∧ s'.hx.drsSent = false
        ∧ s'.hx.lstate = .down ∧ s'.qf.queues = [] ∧ s'.qf.fences = []))
    ∧ ((cor ≠ 0 ∨ unc ≠ 0) → answers (exec (.pcieAer cor ⟨unc, hd⟩) s) (fun s' =>
        let seenBits := 2 ^ 32 - 1 - h.cfg.aerUncMask % 2 ^ 32
        let first := unc.toNat &&& seenBits ≠ 0 ∧ h.cfg.aerUnc &&& seenBits = 0
        s'.hx.cfg.aerCor = h.cfg.aerCor ||| cor.toNat ∧ s'.hx.cfg.aerUnc = h.cfg.aerUnc ||| unc.toNat ∧ s'.mem = s.mem
        ∧ (first → s'.hx.cfg.aerHeader = toLE 16 hd.toNat) ∧ (¬ first → s'.hx.cfg.aerHeader = h.cfg.aerHeader)))

/-! Queues, receipts and the Letterbox -/

/-- QUEUE COMMANDS. A valid doorbell moves TAIL, sets PENDING and makes an idle bound queue ACTIVE, an invalid one faults it with BAD_TAIL,
from the host or from a tile that may write the page; ENABLE, DISABLE, RESUME, CANCEL and RESET move the state as R323 says, and the host's
are discarded in D3hot; a run takes TAIL as its target; the drain test ends it; a watchdog or a sweep that finds a queue guilty resets it,
and the end of a reset moves HEAD to TAIL and poisons the fences it leaves unsignalled. -/
def Obligations.QueueCommands : Prop :=
  ∀ (s : State) (q : QueueId) (t : TileId) (T : BitVec 32) (e : QueueEnt) (c : Chart) (d : Desc),
    let Q := getQ s q.val
    let bound := (fetchEnt s q.val).isSome
    let dist := diff32 T.toNat Q.head
    let after := fun (s' : State) => getQ s' q.val
    let drained := if Q.head = Q.tail ∧ Q.pending = false then 1 else 2
    let settled := ∀ y ∈ s.qf.descs, y.phase = .ready → y.trOk = true
    let resets := fun (o : Instr) (v : Nat) => Q.state ≠ 0 → Q.state ≠ 5 → answers (exec o s) (fun s' =>
      (after s').state = 5 ∧ (after s').run = false ∧ (after s').verdict = v ∧ (after s').head = Q.head
      ∧ (∀ x ∈ s'.qf.descs, x.q = q.val → ((x.phase = .done ∧ x.status = 0x50) ∨ x.phase = .started)
        ∧ (x.phase = .started → dtype x = 1 → x.copy.stop = some 0x50))
      ∧ (∀ f, f ∈ (after s').poison ↔ ∃ x ∈ s.qf.descs, x.q = q.val ∧ ∃ v, (f, v) ∈ signals x))
    let rings := fun (o : Instr) =>
      (dist ≤ ringEntries Q → diff32 Q.tail Q.head ≤ dist → answers (exec o s) (fun s' => (after s').tail = T.toNat ∧ (after s').pending = true
        ∧ (after s').state = (if Q.state = 1 ∧ bound = true then 2 else Q.state) ∧ (after s').head = Q.head ∧ s'.mem = s.mem))
      ∧ ((ringEntries Q < dist ∨ dist < diff32 Q.tail Q.head) → Q.state ≠ 0 → Q.state ≠ 4 → Q.state ≠ 5 → answers (exec o s) (fun s' =>
        (after s').state = 4 ∧ (after s').reason = 0x70 ∧ (after s').tail = Q.tail ∧ s'.mem = s.mem))
    (hostLive s = true → s.hx.waiting = [] → rings (.doorbell q T))
    ∧ (tilePage s q.val t.val = true → rings (.tileDoorbell t q T))
    ∧ (tilePage s q.val t.val = false → exec (.tileDoorbell t q T) s = .next s)
    ∧ (hostLive s = false → ∀ o, (o = .doorbell q T ∨ o = .queueEnable q ∨ o = .queueDisable q ∨ o = .queueResume q ∨ o = .queueCancel q
      ∨ o = .queueReset q) → exec o s = .next s)
    ∧ (hostLive s = true →
      (Q.state = 0 →
        (wfld Q.ring 3 0 ≤ 12 → lbEnabled s = true → answers (exec (.queueEnable q) s) (fun s' =>
          (after s').state = if Q.pending = true ∧ bound = true then 2 else 1))
        ∧ ((12 < wfld Q.ring 3 0 ∨ lbEnabled s = false) → answers (exec (.queueEnable q) s) (fun s' =>
          (after s').state = 0 ∧ (after s').reason = 0x71)))
      ∧ (Q.state = 1 → Q.held = 0 → answers (exec (.queueDisable q) s) (fun s' => (after s').state = 0 ∧ (after s').ring = Q.ring))
      ∧ (Q.state = 4 → faultedDesc s q.val = none → ∀ o, (o = .queueResume q ∨ o = .queueCancel q) →
        answers (exec o s) (fun s' => (after s').state = drained ∧ (o = .queueResume q → wdCount s' (after s') = 0)))
      ∧ (Q.state = 4 → faultedDesc s q.val = some d → answers (exec (.queueCancel q) s) (fun s' =>
        (∃ x, getDesc s' q.val d.idx = some x ∧ x.phase = .done ∧ x.status = 0x51)
        ∧ (settled → (∀ y ∈ s.qf.descs, y.q = q.val → y.idx ≠ d.idx → y.phase ≠ .faulted ∧ y.recheck = false) → (after s').state = 2)))
      ∧ resets (.queueReset q) 0)
    ∧ (boundEnt s q.val = some e → 0 < e.watchdog → Q.wdRun = true → e.watchdog ≤ wdCount s Q →
      (∀ x ∈ s.qf.descs, x.q = q.val → x.phase ≠ .done) → resets (.watchdogExpiry q) 1)
    ∧ (s.chart = some c → s.qf.sweepMark + c.sweepTicks ≤ s.now → answers (exec .fenceCycleSweep s) (fun s' => s'.qf.sweepMark = s.now
        ∧ ∀ k, (k ∈ guiltyQueues s → (getQ s k).state ≠ 0 → (getQ s' k).state = 5)
          ∧ (settled → (k ∉ guiltyQueues s ∨ (getQ s k).state = 0) → (getQ s' k).state = (getQ s k).state)))
    ∧ (Q.state = 2 → Q.pending = true → Q.run = false → s.pw.mstate ≠ 2 → bound = true →
      answers (exec (.fetchRunStart q) s) (fun s' => (after s').target = Q.tail ∧ (after s').pending = false ∧ (after s').run = true))
    ∧ ((Q.state = 3 ∨ (Q.state = 2 ∧ Q.head = Q.target)) → answers (exec (.drainTest q) s) (fun s' => (after s').state = drained))
    ∧ (Q.state = 5 → (∀ x ∈ s.qf.descs, x.q = q.val → x.phase = .started → dtype x ≠ 1) →
      answers (exec (.queueResetDone q) s) (fun s' => (after s').head = Q.tail ∧ (after s').tail = Q.tail
        ∧ (after s').state = (if Q.badTail = true then 4 else if Q.pending = true ∧ bound = true then 2 else 1)
        ∧ (after s').guilty = (if Q.verdict = 0 then Q.guilty else (Q.guilty + 1) % 65536)
        ∧ ∀ f ∈ Q.poison, getFence s' f = 2 ^ 64 - 1))

/-- DESCRIPTORS. A fetched descriptor takes its slots and moves HEAD, an unknown TYPE is MALFORMED; a fetch that fails faults the queue and
keeps HEAD; a started SIGNAL has signalled; a COPY moves its bytes and ends with its status; a LAUNCH puts its contexts at ENTRY_PC and ends
with LAUNCH_FAULT exactly where a tile was reset; a SERVICE goes to the delivery ring and is completed by its task; completing queues a receipt
and counts DONE; a signal raises a fence to its maximum unless it is poisoned and ends the WAITs it meets. -/
def Obligations.Descriptors : Prop :=
  ∀ (s s1 s2 : State) (q : QueueId) (t : TileId) (v : BitVec 64) (k : BitVec 32) (cnt : BitVec 6) (a : BitVec 42) (st : BitVec 16)
    (d : Desc) (hd b host bs : List Byte) (po : List Bool) (x : CopyUnit) (y : CohRd) (f : Fin 16384) (g : Agent) (i re : Nat),
    let Q := getQ s q.val
    let after := fun (s' : State) => getQ s' q.val
    let n := entriesNeeded hd
    let ring := 2 ^ (wfld Q.dlv 3 0 + 4)
    let old := getFence s f.val
    let acts := g = .debug ∨ (∃ u, g = .tile u) ∨ (g = .host ∧ hostLive s = true)
    (mayFetch s q.val = true → Q.head ≠ Q.target → entryBytes s q.val 1 host [] = some (hd, s1) → n ≤ diff32 Q.target Q.head →
      slotsFree s q.val n = true → entryBytes s q.val n host [] = some (b, s2) →
      answers (exec (.ringFetchDone q host []) s) (fun s' => (after s').head = (Q.head + n) % 2 ^ 32 ∧ (after s').held = Q.held + n
        ∧ (∃ e ∈ s'.qf.descs, e.q = q.val ∧ e.idx = Q.head ∧ e.bytes = b ∧ e.slots = n)
        ∧ (getDesc s q.val Q.head = none → leAt b 0 1 = 0 → (after s').state = 4
          ∧ (after s').reason = 1 ∧ ∃ e, getDesc s' q.val Q.head = some e ∧ e.phase = .faulted ∧ e.status = 1)))
    ∧ (mayFetch s q.val = true → Q.head ≠ Q.target →
      (ringLocal Q = false → Q.asked ≠ Q.head → answers (exec (.ringFetchFault q) s) (fun s' => (after s').state = 4 ∧ (after s').head = Q.head
        ∧ (after s').reason = 0x30 ∧ s'.qf.receipts = s.qf.receipts))
      ∧ (ringLocal Q = true → i < headEntries s q.val → (∀ j < i, entryFault s q.val (Q.head + j) = none) →
        entryFault s q.val (Q.head + i) = some (re, s1) → answers (exec (.ringFetchFault q) s) (fun s' => (after s').state = 4
          ∧ (after s').head = Q.head ∧ (after s').reason = re ∧ s'.qf.receipts = s.qf.receipts)))
    ∧ (mayStart s q.val = some d →
      (dtype d ≠ 2 → answers (exec (.descriptorStart q) s) (fun s' => ∃ e, getDesc s' q.val d.idx = some e
        ∧ (e.phase = .started ∨ e.phase = .done) ∧ (dtype d = 4 → e.phase = .done
          ∧ (df d 0x20 2 = f.val → getFence s' f.val = if old = fencePoison then fencePoison else max old (df d 0x28 8)))))
      ∧ (dtype d = 2 → scanOpen s = false → selected s d ≠ [] → (∀ u ∈ selected s d, resident (getT s u) = false) →
        d.copy.stop = none → constsRead d = true → answers (exec (.launchStart q) s) (fun s' =>
          ∀ u ∈ selected s d, (getT s' u).launch = some (d.q, d.idx) ∧ (getT s' u).tstate = .t0 ∧ (getT s' u).lsBytes = launchL s d
            ∧ ∀ c : CtxId, c.val < df d 0x2A 1 → (getC s' u c).pc = df d 0x20 8 ∧ (getC s' u c).run = .running)))
    ∧ (getDesc s q.val k.toNat = some d →
      (d.phase = .done → answers (exec (.descriptorComplete q k) s) (fun s' => (after s').done = (Q.done + 1) % 2 ^ 32
        ∧ getDesc s' q.val k.toNat = none ∧ ∃ r l, s'.qf.receipts = s.qf.receipts ++ r :: l ∧ r.q = q.val ∧ r.status = d.status
          ∧ r.tag = df d 0x10 8 ∧ r.slots = d.slots))
      ∧ (d.phase = .started → dtype d = 1 → s.link.dmaDone.find? (fun z => z.q == d.q && z.idx == d.idx) = none → d.copy.stop = none →
        s.hx.stopped = false → dmaBlocked s d = false → Q.state ≠ 5 →
        (d.copy.units = [] → copyUnits d ≤ d.copy.next → d.copy.reqs = [] → answers (exec (.copy q k []) s) (fun s' =>
          ∃ e, getDesc s' q.val k.toNat = some e ∧ e.phase = .done ∧ e.status = (if (d.copy.results.drop 2).any (· != 0) then 0x43
            else if d.copy.poisoned = [] then 0 else 0x40)))
        ∧ (d.copy.units = [x] → copyMode d = 0 → dstSpace d = 0 → x.parts = [some (bs, po)] →
          copyWaits s d ((unitDst d x.u [(bs, po)]).1 % 2 ^ 48) = false →
          cohWriteFrom s (engineDie d) ((unitDst d x.u [(bs, po)]).1 % 2 ^ 48) (bs.map some) po (fld (df d 0x3A 1) 3 2) [] = some (0, s1) →
          answers (exec (.copy q k []) s) (fun s' => s'.mem = s1.mem ∧ ∃ e, getDesc s' q.val k.toNat = some e
            ∧ e.copy.moved = d.copy.moved + bs.length ∧ e.copy.units = [])))
      ∧ (d.phase = .started → dtype d = 2 → Q.state ≠ 5 → (∀ u ∈ d.tiles, (∃ e ∈ d.ends, e.1 = u) ∨
          ((getT s u).launch = some (q.val, k.toNat) ∧ (getT s u).launchEnd.isSome = true)) →
        answers (exec (.launchEnd q k) s) (fun s' => ∃ e, getDesc s' q.val k.toNat = some e ∧ e.phase = .done
          ∧ (e.status = 0 ∨ e.status = 0x44) ∧ (e.status = 0x44 ↔ ∃ z ∈ e.ends, z.2.1 ≠ 0))))
    ∧ (s.qf.descs.find? (fun e => e.q == q.val && dtype e == 5 && e.phase == .started && e.delivered.isNone) = some d →
      wfld Q.dlv 47 8 ≠ 0 → diff32 Q.prod Q.cons < ring →
      cohWriteBFrom s 31 (wfld Q.dlv 47 8 * 256 + 256 * (Q.prod % ring)) (slice d.bytes 0 256) 0 [] = some (0, s1) →
      answers (exec (.serviceDelivery q []) s) (fun s' => (after s').prod = (Q.prod + 1) % 2 ^ 32 ∧ s'.mem = s1.mem
        ∧ ∃ e ∈ s'.qf.descs, e.q = q.val ∧ e.idx = d.idx ∧ e.delivered = some Q.prod))
    ∧ (tilePage s q.val t.val = true →
      (s.qf.descs.find? (fun e => e.q == q.val && e.phase == .started && e.delivered == some k.toNat) = some d → Q.state ≠ 5 →
        answers (exec (.svcDone t q st k) s) (fun s' => ∃ e ∈ s'.qf.descs, e.q = q.val ∧ e.idx = d.idx ∧ e.phase = .done ∧ e.status = st.toNat))
      ∧ (cohReadFrom s 31 (a.toNat * 64) (64 * (cnt.toNat + 1)) 1 false [] = some y → y.st = 0 → y.pois.any id = false →
        answers (exec (.qfPost t q cnt a []) s) (fun s' => s'.qf.receipts.length = s.qf.receipts.length + cnt.toNat + 1
          ∧ ∀ j, j ≤ cnt.toNat → ((s'.qf.receipts[s.qf.receipts.length + j]?).bind (·.raw)) = some (slice y.bytes (64 * j) 64))))
    ∧ (acts →
      answers (exec (.fenceWrite f ⟨g, v⟩) s) (fun s' => getFence s' f.val = (if old = fencePoison then fencePoison else max old v.toNat)
        ∧ (∀ h, h ≠ f.val → getFence s' h = getFence s h)
        ∧ (old ≠ fencePoison → ∀ e ∈ s'.qf.descs, e.phase = .started → dtype e = 3 → waitMet s' e = none))
      ∧ answers (exec (.fenceClr ⟨g, f⟩) s) (fun s' => getFence s' f.val = 0 ∧ ∀ h, h ≠ f.val → getFence s' h = getFence s h))
    ∧ (¬ acts → exec (.fenceWrite f ⟨g, v⟩) s = .next s ∧ exec (.fenceClr ⟨g, f⟩) s = .next s)

/-- THE LETTERBOX. QF_LB is taken only while no queue is enabled; ring registers keep their used bits; a receipt goes to its ring at the next
place, the bytes from 0x08 before its SEQ, and frees its slots, with it the request whose FINAL it is; a queue's two words, and the global
block between an odd and an even LOCK, follow a change; the heartbeat rises every 12,500 ticks. -/
def Obligations.Letterbox : Prop :=
  ∀ (s : State) (v : BitVec 64) (w : BitVec 32) (r : Fin 64) (q : QueueId) (k : Nat) (x : Rcpt) (g : Agent),
    let f := s.qf
    let acts := g = .debug ∨ (∃ u, g = .tile u) ∨ (g = .host ∧ hostLive s = true)
    let u := if g = .host then traffic s else s
    let qf := fun (h : QfSt) => (.next { u with qf := h } : Host.Outcome State Fault Refusal)
    let N := rringEntries s r.val
    let n := f.rposts.getD r.val 0
    let base := lbBase s
    let a := base + rringLo s r.val + 64 * (n % N)
    let Q := getQ s q.val
    (acts →
      (anyEnabled s = true → exec (.letterboxRegister ⟨g, v⟩) s = .next u)
      ∧ (anyEnabled s = false → exec (.letterboxRegister ⟨g, v⟩) s = qf { f with
          lb := BitVec.ofNat 64 (v.toNat / 4096 * 4096 + v.toNat % 2), gdirty := true })
      ∧ exec (.rringConfig r ⟨g, v⟩) s = qf { f with
          rring := f.rring.set r.val (BitVec.ofNat 64 (v.toNat % 2 ^ 32 / 4096 * 4096 + v.toNat % 32)) }
      ∧ exec (.rringConsWrite r ⟨g, w⟩) s = qf { f with rcons := f.rcons.set r.val w.toNat }
      ∧ exec (.errConsWrite ⟨g, w⟩) s = qf { f with errCons := w.toNat })
    ∧ (¬ acts → ∀ o, (o = .letterboxRegister ⟨g, v⟩ ∨ o = .rringConfig r ⟨g, v⟩ ∨ o = .rringConsWrite r ⟨g, w⟩ ∨ o = .errConsWrite ⟨g, w⟩) →
      exec o s = .next s)
    ∧ (f.receipts.findIdx? (fun z => queueRring s z.q == r.val) = some k → f.receipts[k]? = some x → x.raw ≠ some [] → mayPost s = true →
      rringEn s r.val = true → diff32 n (f.rcons.getD r.val 0) < N → answers (exec (.receiptPost r) s) (fun s' =>
        s'.out = s.out ++ [.post (a + 8) (receiptBytes x), .post a (toLE 8 (n + 1))]
        ∧ (getQ s' x.q).held = (getQ s x.q).held - x.slots ∧ s'.qf.receipts = f.receipts.eraseIdx k
        ∧ s'.qf.rposts = f.rposts.set r.val (n + 1) ∧ s'.mem = s.mem
        ∧ (∀ i, x.req = some i → ∀ y ∈ s'.rt.reqs, y ∈ s.rt.reqs ∧ y.id ≠ i)))
    ∧ (mayPost s = true →
      (Q.dirty = true → exec (.queueWordPost q) s = .next { s with
        hx := (traffic s).hx, qf := { f with queues := mset f.queues q.val { Q with dirty := false } }
        out := s.out ++ [.post (base + 0x1000 + 16 * q.val) (toLE 8 (queueStat Q false).toNat),
          .post (base + 0x1000 + 16 * q.val + 8) (toLE 8 (Q.done % 2 ^ 32 + Q.guilty % 65536 * 2 ^ 32))] })
      ∧ (f.gdirty = true → exec .globalBlockPost s = .next { s with
        hx := (traffic s).hx, qf := { f with lock := f.lock + 2, gdirty := false }
        out := s.out ++ [.post base (toLE 8 (f.lock + 1)), .post (base + 8) (globalBytes s), .post base (toLE 8 (f.lock + 2))] }))
    ∧ (lbEnabled s = true → f.hbMark + 12500 ≤ s.now → s.hx.stopped = false → lsAlive s = true →
      exec .lbHeartbeat s = .next { s with qf := { f with heartbeat := f.heartbeat + 1, hbMark := s.now, gdirty := true } })

/-! Chart and service runtime -/

/-- CHART COMMANDS. A full image that passes validation goes to the other slot, comes into force and is measured; a rejected one counts and
leaves the Chart and the amendment target as they are; an image that cannot be read ends the AMEND. An amendment is appended to the chain and
quiesces, its leaving tiles told; at the end of the quiesce, or when its time is over, it is in force and the tiles that left are in T3. -/
def Obligations.ChartCommands : Prop :=
  ∀ (s s1 : State) (d : Desc) (host : Option (List Byte)) (b : List Byte) (f : Fail) (c : Chart) (a : Amending) (n : Nat),
    let ended := fun (s' : State) (st : Nat) => ∃ e ∈ s'.qf.descs, e.q = d.q ∧ e.idx = d.idx ∧ e.phase = .done ∧ e.status = st
    let slot := s.ch.slots.getD s.ch.current ChSlot.empty
    let img := slot.chain.getLastD []
    let amended := fun (s' : State) => s'.chart = some (amendedChart c img) ∧ s'.qf.amending = none ∧ s'.ch.state = 2
      ∧ s'.ch.chainLen = s.ch.chainLen + 1 ∧ s'.sec.meas = extendReg s.sec.meas 2 (imageDigest img)
      ∧ ∀ t ∈ a.leaving, ((amendedChart c img).consts.any (fun k => k.id == a.target && k.tiles.testBit t)) = false → (getT s' t).tstate = .t3
    (theAmend s = some d → s.qf.amending = none → scanOpen s = false → (getQ s d.q).state ≠ 5 →
      (readImage s d host [] = some (.error n, s1) → ∀ o, (o = .amendFullLoad host true [] ∨ o = .amendAmendment host true []) →
        answers (exec o s) (fun s' => s'.chart = s.chart ∧ s'.ch.rejects = s.ch.rejects ∧ ended s' n))
      ∧ (readImage s d host [] = some (.ok b, s1) → ∀ fl : Bool,
        (isAmendment b = false → validate s1 b s1.chart false = some f → answers (exec (.amendFullLoad host fl []) s) (fun s' =>
          s'.chart = s.chart ∧ s'.ch.rejects = (s.ch.rejects + 1) % 2 ^ 32 ∧ s'.ch.lastCode = f.1 ∧ s'.ch.slots = s.ch.slots ∧ ended s' 0x45))
        ∧ (isAmendment b = false → validate s1 b s1.chart false = none → answers (exec (.amendFullLoad host true []) s) (fun s' =>
          s'.chart = some (chartOf b) ∧ s'.ch.current = 1 - s.ch.current ∧ s'.ch.state = 2 ∧ s'.ch.chainLen = 0
          ∧ s'.ch.slots = s.ch.slots.set (1 - s.ch.current) { base := b, chain := [] }
          ∧ s'.sec.meas = extendReg s.sec.meas 2 (imageDigest b) ∧ ended s' 0))
        ∧ (isAmendment b = true → validate s1 b s1.chart false = some f → answers (exec (.amendAmendment host fl []) s) (fun s' =>
          s'.chart = s.chart ∧ s'.ch.rejects = (s.ch.rejects + 1) % 2 ^ 32 ∧ s'.ch.lastCode = f.1 ∧ s'.ch.target = s.ch.target ∧ ended s' 0x45))
        ∧ (isAmendment b = true → validate s1 b s1.chart false = none → s.chart = some c → slot.chain.length < 64 →
          answers (exec (.amendAmendment host true []) s) (fun s' => s'.chart = s.chart ∧ s'.ch.state = 3 ∧ s'.ch.target = leAt (cut b 0 256) 0x0B 1 % 64
            ∧ s'.ch.slots = s.ch.slots.set s.ch.current { slot with chain := slot.chain ++ [b] }
            ∧ (s'.qf.amending.map (·.mark)) = some s.now
            ∧ ∀ t ∈ leavingTiles c (amendedChart c b) (leAt (cut b 0 256) 0x0B 1), (getT s' t).tstate ≠ .t3 → (getT s' t).chartLeave = true))))
    ∧ (s.qf.amending = some a → s.chart = some c →
      ((∀ t ∈ a.leaving, resident (getT s t) = false ∨ fenced s (t / 64) = true ∨ (getT s t).held = true) →
        answers (exec .quiesceEnd s) amended)
      ∧ (a.mark + c.quiesceTicks ≤ s.now → answers (exec .quiesceTimeout s) amended))

/-- SERVICE RUNTIME. The runtime's launch goes to every free replica tile of a SERVING constellation; the coordinator takes a delivery,
advances QF_CONS and completes it with its status: an accepted GENERATE joins the table, an unknown OP is BAD_REQUEST, a CANCEL marks its target, a
REGISTER adds its model, an UNREGISTER removes it. The head request joins the emptier half with its pages; the half whose turn has come moves its
sequence on, ending a cancelled one; a lost model's requests end or move to its standby copy, and the model is gone once its instance serves. -/
def Obligations.ServiceRuntime : Prop :=
  ∀ (s s1 : State) (c : Chart) (q : QueueId) (k : Constel) (b : List Byte) (im p : Option (List Byte)) (m : Model) (r : Req) (id num i j : Nat)
    (sb : Bool) (h : Fin 2),
    let taken := fun (s' : State) => (getQ s' q.val).cons = ((getQ s q.val).cons + 1) % 2 ^ 32
    let op := leAt b 0x20 1
    let g := genStatus s1 k b p
    let hit := fun (x : Req) => reqOf k.id (leAt b 0x22 2) x && x.tag == leAt b 0x28 8
    let waits := fun (x : Req) => reqOf id num x && x.phase == .waiting
    let size := fun (n : Nat) => (s.rt.reqs.filter (inHalf m r.moved n)).length
    let less := if size 1 < size 0 then 1 else 0
    (s.chart = some c → lsAlive s = true → s.su.rtOk = true → s.pw.mstate ≠ 2 → scanOpen s = false →
      answers (exec .runtimeLaunch s) (fun s' => s'.mem = s.mem ∧ ∀ x ∈ c.consts, x.flags.testBit 0 = true → ∀ t, t < 1024 →
        (instTiles x &&& x.tiles).testBit t = true → tileServes s t = true → (getT s t).chartLeave = false → resident (getT s t) = false →
        (getT s' t).launchEnd = none ∧ ∃ n, (getT s' t).launch = some (rtQueue, n)))
    ∧ (delivery s q.val = some (k, b) →
      (op ≠ 2 → op ≠ 3 → op ≠ 4 → promptBytes s k b [] = some (p, s1) → answers (exec (.svcGenerate q []) s) (fun s' =>
        taken s' ∧ s'.rt.reqs = s.rt.reqs ++ (if g.1 = 0 then [newReq s1 k b g.2] else []) ∧ (op ≠ 1 → g.1 = 0x80)
        ∧ (op = 1 → genFieldsOk b = true → p.isSome = true → getModel s1 k.id (leAt b 0x22 2) = none → g.1 = 0x81)))
      ∧ (op = 2 → leAt b 0x22 2 ≤ 1023 → restZero b [(0x20, 1), (0x22, 2), (0x28, 8)] = true → (getModel s k.id (leAt b 0x22 2)).isSome = true →
        s.rt.reqs.any hit = true → answers (exec (.svcCancel q) s) (fun s' => taken s'
          ∧ s'.rt.reqs = s.rt.reqs.map (fun x => if hit x then { x with cancel := true } else x)))
      ∧ (op = 3 → imageBytes s k b [] = some (im, s1) → answers (exec (.svcRegister q []) s) (fun s' => taken s'
          ∧ s'.rt.models = s.rt.models ++ (regResult s1 k b im).2.toList ∧ s'.rt.reqs = s.rt.reqs))
      ∧ (op = 4 → leAt b 0x22 2 ≤ 1023 → restZero b [(0x20, 1), (0x22, 2)] = true → (getModel s k.id (leAt b 0x22 2)).isSome = true →
        s.rt.reqs.any (reqOf k.id (leAt b 0x22 2)) = false → answers (exec (.svcUnregister q) s) (fun s' => taken s'
          ∧ getModel s' k.id (leAt b 0x22 2) = none)))
    ∧ (getModel s id num = some m →
      (s.rt.reqs.find? waits = some r → modelServes s m r.moved = true → size less < m.maxSeq / 2 →
        pagesHeld s m r.moved + reqPages r.prompt.length r.maxTokens ≤ m.kvPages → answers (exec (.admission id num) s) (fun s' =>
          (s'.rt.reqs.filter (inHalf m r.moved less)).length = size less + 1 ∧ s'.rt.reqs.length = s.rt.reqs.length ∧ s'.mem = s.mem
          ∧ ({ r with phase := .running less, pages := pageTables s m r } : Req) ∈ s'.rt.reqs))
      ∧ (copyPlace m sb = some (i, j) → nextHalf s i j = some (roundKey m sb h.val) → s.rt.reqs = [r] → inHalf m sb h.val r = true →
        mayPost s = false →
        let after := (seqStep s m.image (imHdr m.image) j 256 r).1
        answers (exec (.halfStep id num sb h) s) (fun s' => (∃ e, s'.rt.reqs = [{ after with energy := e }])
          ∧ s'.rt.rounds = mset s.rt.rounds (roundSlot i j) (roundKey m sb h.val + 1) ∧ s'.rt.models = s.rt.models)
        ∧ (3072 < bufLen r → after = r)
        ∧ (bufLen r ≤ 3072 → r.cancel = true → ∃ e u, after.phase = .ended e u))
      ∧ answers (exec (.instanceLoss id num) s) (fun s' =>
        (num < 1024 → regionsLost s m false = true → copyServes s id m.inst = true → getModel s' id num = none)
        ∧ (modelServes s m false = false → modelServes s m true = false → ∀ x ∈ s'.rt.reqs, reqOf id num x = true →
          ∃ e u, x.phase = .ended e u ∨ x.phase = .posting e u)
        ∧ (modelServes s m false = false → modelServes s m true = true → ∀ x ∈ s.rt.reqs, reqOf id num x = true → x.moved = false →
          x.phase = .waiting → ∃ y ∈ s'.rt.reqs, y.id = x.id ∧ y.moved = true ∧ y.phase = .waiting)))

/-! Power -/

/-- POWER. An idle tile goes to T1, after T2_IDLE to T2 without its caches, and wakes to T0; every tile takes its level. Each interval takes the
measured input and a constellation above its cap steps down; over-power forces every compute die; the brake forces level 5 or slower,
holds for 125,000 ticks and may be masked by a token; the module enters M1, M2 and M0 on its conditions, refused with a reason. -/
def Obligations.Power : Prop :=
  ∀ (s : State) (t : TileId) (d : CDie) (pin : Nat) (est : SMap Nat) (c : Chart) (b : List Byte) (r : Nat),
    let T := getT s t.val
    let p := s.pw
    let bit := fun (s' : State) (i n : Nat) => (getW s' i).wkState.toNat.testBit n
    let stepped := fun (s' : State) => s'.pw.inputW = pin ∧ s'.pw.est = est ∧ s'.pw.mark = s.now
      ∧ (s.chart = some c → (c.consts.map (·.id)).Nodup → ∀ k ∈ c.consts, k.env.capW < mget est 0 k.id → levelOf s k < 7 →
        levelOf s' k = levelOf s k + 1)
    let free := fun (s' : State) => s'.pw.brake = false ∧ s'.pw.brakeStuck = false ∧ ∀ i, i < 32 → bit s' i 2 = false
    let signer := if s.sec.lifecycle = 0 then 2 else 1
    (T.tstate = .t0 → tileIdle T = true → rtBusy s t.val = false → answers (exec (.tileIdleT1 t) s) (fun s' =>
        (getT s' t).tstate = .t1 ∧ (getT s' t).idleMark = s.now ∧ (getT s' t).ctx = T.ctx ∧ (getT s' t).store = T.store ∧ s'.mem = s.mem))
    ∧ (T.tstate = .t1 → t2Idle s t ≠ 0 → T.idleMark + t2Idle s t ≤ s.now → answers (exec (.tileT2Entry t) s) (fun s' =>
        (getT s' t).tstate = .t2 ∧ (getT s' t).l1d = [] ∧ (getT s' t).l1i = [] ∧ (getT s' t).tc = [] ∧ (getT s' t).ctx = T.ctx ∧ (getT s' t).store = T.store))
    ∧ ((T.tstate = .t1 ∨ T.tstate = .t2) → answers (exec (.tileWake t) s) (fun s' =>
        (getT s' t).tstate = .t0 ∧ (getT s' t).level = tileLevel s t ∧ (getT s' t).ctx = T.ctx))
    ∧ answers (exec (.opPointChange t) s) (fun s' => (T.tstate ≠ .t3 → (getT s' t).level = tileLevel s t) ∧ (getT s' t).tstate = T.tstate ∧ s'.mem = s.mem)
    ∧ (lsAlive s = true → s.su.mainOk = true →
      (p.brake = false → p.mark + 1250 ≤ s.now → answers (exec (.powerInterval pin est) s) stepped)
      ∧ (p.brake = true → p.mark + 125 ≤ s.now → answers (exec (.brakeInterval pin est) s) stepped)
      ∧ (p.brake = true → p.brakeStuck = false → p.brakeFrom + 125000000 ≤ s.now → answers (exec .brakeStuck s) (fun s' =>
        s'.pw = { p with brakeStuck := true }))
      ∧ (m2Refusal s = some r → exec .m2EnterReq s = .next { s with pw := { p with refusal := r } })
      ∧ (m2Refusal s = none → answers (exec .m2EnterReq s) (fun s' => s'.pw.mstate = 2 ∧ s'.pw.refusal = 0
        ∧ (∀ u, u < 1024 → (getT s' u).tstate = .t3) ∧ (∀ i, i < 28 → bit s' i 1 = false) ∧ s'.chart = s.chart))
      ∧ (p.mstate = 2 → answers (exec .m0ReturnReq s) (fun s' => s'.pw.mstate = 1 ∧ ∀ i, i < 28 → bit s' i 1 = true))
      ∧ (p.mstate ≠ 2 → exec .m0ReturnReq s = .next { s with pw := { p with refusal := 4 } }))
    ∧ (2000 < pin → s.su.mainOk = true → answers (exec (.overPower pin) s) (fun s' => ∀ i, i < 16 → bit s' i 3 = true))
    ∧ (pin ≤ 2000 → exec (.overPower pin) s = .next s)
    ∧ (lsAlive s = true → bit s d 3 = true → answers (exec (.overpowerClear d) s) (fun s' => bit s' d 3 = false ∧ s'.pw.lifting.testBit d.val = true))
    ∧ (lsAlive s = false → answers (exec .overpowerAutoLift s) (fun s' => ∀ i, i < 16 → bit s' i 3 = false))
    ∧ (p.masked = false → p.brake = false → answers (exec .pwrbrkAssert s) (fun s' => s'.pw.brake = true ∧ s'.pw.low = true
        ∧ s'.pw.accepted = s.now ∧ s'.pw.brakeFrom = s.now ∧ s'.pw.mark = s.now ∧ (∀ i, i < 32 → bit s' i 2 = true)
        ∧ (s.chart = some c → (c.consts.map (·.id)).Nodup → ∀ k ∈ c.consts, levelOf s' k = max 5 (levelOf s k))))
    ∧ (p.masked = true → exec .pwrbrkAssert s = .next { s with pw := { p with low := true, accepted := s.now } })
    ∧ (p.low = true → answers (exec .pwrbrkDeassert s) (fun s' => s'.pw.low = false ∧ s'.pw.masked = false
        ∧ s'.pw.brake = (p.brake && decide (s.now < p.accepted + 125000))))
    ∧ (p.brake = true → p.low = false → p.accepted + 125000 ≤ s.now → answers (exec .brakeHoldExpiry s) free)
    ∧ (lsManaged s = true → tokenChecks s b 1 signer = none → s.sec.lifecycle ≠ 3 → p.brakeStuck = true → permit s 4 = true →
      answers (exec (.brakeMask b) s) (fun s' => s'.pw.masked = true ∧ s'.pw.brake = false ∧ s'.pw.brakeStuck = true ∧ s'.sec.chal = none))
    ∧ (s.su.mainOk = true → p.mstate = 0 → quietModule s = true → exec .m1Entry s = .next { s with pw := { p with mstate := 1 } })
    ∧ (p.mstate = 1 → quietModule s = false → scanOpen s = false → exec .m1Exit s = .next { s with pw := { p with mstate := 0 } })

/-! Security, attestation and debug -/

/-- SECURITY. The identity key is made once; a verified image goes to the slot not in use, its versions reported; the responders answer version 1.3 alone,
a request in chunks once it is whole; a token
that fails a check shows its code and consumes the challenge from check 3 on, one that passes opens the session, in DEPLOYED after the
meter's acknowledgement; sessions end by CLOSE and expiry; an INVASIVE session halts, resumes, reads and writes in its scope; a
lifecycle command changes the state and a finished wipe leaves nothing. -/
def Obligations.Security : Prop :=
  ∀ (s s1 : State) (x : Sideband) (m : SpdmTarget) (k : Fin 4) (b img nonce owner : List Byte) (ver handle index : BitVec 8) (off len : BitVec 16)
    (e : Session) (t : TileId) (c : CtxId) (r : Reg) (p : DbgPlace) (one : Bool) (n key at_ : Nat),
    let S := s.sec
    let sec := fun (f : SecSt) => (.next { s with sec := f } : Host.Outcome State Fault Refusal)
    let slot := 2 * k.val + (1 - S.inUse.getD k.val 0)
    let chain := (spdmKey s m).2
    let replies := fun (o : Instr) (a : SpdmAns) => answers (exec o s) (fun s' =>
      s'.out = s.out ++ [.spdm (m == .meter) a] ∧ s'.mem = s.mem ∧ s'.chart = s.chart ∧ s'.sec.meas = S.meas)
    let signer := stateSigner S.lifecycle
    let level := leAt b 0x38 1
    let closed := fun (s' : State) => s'.sec.session = none ∧ ∀ u d, (getC s' u d).dbg = 0
    let goal := leAt b 0x39 1
    (lsManaged s = true →
      (S.lifecycle = 0 → S.idKey = none → answers (exec (.provisionId x) s) (fun s' => s'.sec.idKey = some (S.keyGens + 1)
        ∧ s'.out = s.out ++ [.sideband (transportCode x) (Config.publicKey (S.keyGens + 1))]))
      ∧ (S.idKey.isSome = true → exec (.provisionId x) s = .next s)
      ∧ answers (exec (.getChallenge x) s) (fun s' => ∃ v, s'.sec.chal = some (v, s.now) ∧ v.length = 32
        ∧ s'.out = s.out ++ [.sideband (transportCode x) v])
      ∧ (tokenChecks s b 0 signer = some n → exec (.debugToken x b) s = sec { S with refusal := n, chal := if 3 ≤ n then none else S.chal })
      ∧ (tokenChecks s b 0 signer = none → (level = 1 ∨ level = 2) → (S.lifecycle = 3 → S.wiped = true) →
        underCeiling s level (leAt b 0x30 8) = true → powerPermits s level = true → S.session = none → S.audit = none →
        (S.lifecycle ≠ 2 → answers (exec (.debugToken x b) s) (fun s' => (s'.sec.session.map (·.level)) = some level
          ∧ (s'.sec.session.map (·.at_)) = some s.now ∧ s'.sec.sessions = (S.sessions + 1) % 65536 ∧ s'.sec.chal = none
          ∧ s'.sec.events = S.events + 1))
        ∧ (S.lifecycle = 2 → answers (exec (.debugToken x b) s) (fun s' => s'.sec.session = none ∧ s'.sec.audit.isSome = true
          ∧ s'.fm.debugMsgs = s.fm.debugMsgs ++ [(level, leAt b 0x30 8, signer)] ∧ s'.sec.chal = none)))
      ∧ (tokenChecks s b 2 (transitionSigner S.lifecycle goal) = none →
        (transitionOk s goal = false → exec (.lifecycle b owner) s = sec { S with refusal := 5, chal := none })
        ∧ (transitionOk s goal = true → (S.lifecycle = 0 → owner.length = 64) → scanOpen s = false →
          answers (exec (.lifecycle b owner) s) (fun s' => s'.sec.lifecycle = goal ∧ s'.sec.session = none ∧ s'.sec.chal = none
            ∧ (goal = 3 → s'.chart = none ∧ s'.sec.wiping = true) ∧ (S.lifecycle = 0 → s'.sec.ownerKey = some owner)))))
    ∧ (lsAnswers s = true → fwOk s k.val img = true →
      let s2 : State := { s with sec := { S with slots := S.slots.set slot img, current := S.current.set k.val (1 - S.inUse.getD k.val 0) } }
      let v := fun (i : Nat) => fwVersion s2 k.val i
      exec (.fwUpdate k img) s = .next { s2 with
        out := s.out ++ [.fwVersion (k.val + 1) (v (1 - (1 - S.inUse.getD k.val 0))) (v (1 - S.inUse.getD k.val 0))] })
    ∧ ((fwOk s k.val img = false ∨ lsAnswers s = false) → exec (.fwUpdate k img) s = .next s)
    ∧ (spdmUp s m = true →
      replies (.spdmGetVersion m) .version ∧ replies (.spdmGetCapabilities m 0x13#8) (.capabilities 4096 65536 22 [.cert, .chal, .measSig, .chunk])
      ∧ replies (.spdmNegotiateAlgorithms m 0x13#8) (.algorithms .sha3x512 0 .slhDsaShake256s .iana)
      ∧ (ver ≠ 0x13#8 → replies (.spdmGetCapabilities m ver) (.error .versionMismatch) ∧ replies (.spdmUnsupportedRequest m ver) (.error .versionMismatch))
      ∧ (chain ≠ [] → replies (.spdmGetDigests m 0x13#8) (.digests (Config.transcriptHash chain)))
      ∧ (off.toNat < chain.length → len.toNat ≤ 4096 → replies (.spdmGetCertificate m 0x13#8 0 off len)
        (.certificate ((chain.drop off.toNat).take len.toNat) (chain.length - off.toNat - ((chain.drop off.toNat).take len.toNat).length)))
      ∧ ((spdmKey s m).1 = some key → replies (.spdmChallenge m 0x13#8 0 nonce) (.large (((spdmGet s m).txHandle + 1) % 256)))
      ∧ (measBlocks s m index.toNat = some img → replies (.spdmGetMeasurements m 0x13#8 index false nonce) (.measurements img))
      ∧ (measBlocks s m index.toNat = none → replies (.spdmGetMeasurements m 0x13#8 index false nonce) (.error .invalidRequest))
      ∧ (img.length ≤ 4096 → replies (.spdmChunkSend m 0x13#8 handle 0 false img) (.chunkAck handle.toNat 0)
        ∧ answers (exec (.spdmChunkSend m 0x13#8 handle 0 true img) s) (fun s' => ∃ a, s'.mem = s.mem
          ∧ s'.out = s.out ++ [.spdm (m == .meter) (.chunkAck handle.toNat 0), .spdm (m == .meter) a]
          ∧ (chain ≠ [] → img = [0x13#8, 0x81#8, 0#8, 0#8] → a = .digests (Config.transcriptHash chain))))
      ∧ ((spdmGet s m).tx ≠ [] → (spdmGet s m).txHandle = handle.toNat → replies (.spdmChunkGet m 0x13#8 handle (spdmGet s m).txNext)
        (.chunk handle.toNat (spdmGet s m).txNext ((spdmGet s m).tx.drop 4096).isEmpty ((spdmGet s m).tx.take 4096)))
      ∧ replies (.spdmUnsupportedRequest m 0x13#8) (.error .unsupportedRequest))
    ∧ (S.chal = some (nonce, at_) →
      (at_ + 750000000 ≤ s.now → exec .challengeExpiry s = sec { S with chal := none })
      ∧ (s.now < at_ + 750000000 → exec .challengeExpiry s = .next s))
    ∧ (0 < s.fm.acks → S.audit = some e → s.now ≤ e.at_ + 1250000 → answers (exec .meterAuditAck s) (fun s' =>
        s'.sec.session = some { e with at_ := s.now } ∧ s'.sec.audit = none ∧ s'.fm.acks = s.fm.acks - 1))
    ∧ (S.session = some e →
      (e.transport = transportCode x → e.level ≠ 3 → answers (exec (.debugClose x) s) closed)
      ∧ (e.transport ≠ transportCode x → exec (.debugClose x) s = .next s)
      ∧ (e.at_ + e.ticks ≤ s.now → e.level ≠ 3 → answers (exec .sessionExpiry s) closed)
      ∧ (lsManaged s = true → (e.level = 1 ∨ e.level = 2) → dbgReads s e p = true →
        (dbgRead s p = some (img, s1) → exec (.debugAccess p none) s = .next { s1 with out := s1.out ++ [.sideband e.transport img] })
        ∧ (p = .gpr t c r → dbgRead s p = some (toLE 8 (xget (getC s t c) r).toNat, s))
        ∧ (e.level = 2 → p = .gpr t c r → answers (exec (.debugAccess p (some b)) s) (fun s' =>
          xget (getC s' t c) r = (if r = 0 then 0 else BitVec.ofNat 64 (ofLE b)) ∧ sameButCtx s s' t c)))
      ∧ (dbgReads s e p = false → exec (.debugAccess p (some b)) s = .next s))
    ∧ (invasive s t = true →
      ((getT s t).tstate ≠ .t3 → (getT s t).held = false → (getC s t c).dbg ≠ 1 → (getC s t c).pend = none → (getC s t c).run ≠ .idle →
        answers (exec (.debugHalt t c) s) (fun s' => (getC s' t c).dbg = 1 ∧ canIssue s' t c = false ∧ s'.mem = s.mem))
      ∧ ((getC s t c).dbg = 1 → answers (exec (.debugResume t c one) s) (fun s' => (getC s' t c).dbg = (if one then 2 else 0) ∧ sameButCtx s s' t c)))
    ∧ (S.wiping = true → answers (exec .wipeDone s) (fun s' => s'.sec.ownerKey = none ∧ s'.sec.idKey = none ∧ s'.sec.wiped = true
        ∧ s'.sec.wiping = false ∧ s'.sec.lifecycle = S.lifecycle ∧ s'.mem = stEmpty 30 ∧ s'.ch.slots = [ChSlot.empty, ChSlot.empty]))

/-! The Franking Meter -/

/-- THE METER. Posts join their channel and gaps are counted; an interval closes with its energy and the activities divided, a record in the
ledger; postmarks, Chart messages and debug events are recorded; records and postmarks can be read; sealed parameters change in MANUFACTURE
or by token, seal transitions and key provisioning on their conditions; the window is pushed; a fault stops accumulation. -/
def Obligations.Meter : Prop :=
  ∀ (s : State) (t : TileId) (p : MPost) (rest : List MPost) (v i : BitVec 24) (from_ n index block at_ : Nat) (map : List Nat)
    (bytes h value img nonce : List Byte) (msgs : List (Nat × List Nat × List Byte)) (dbg : List (Nat × Nat × Nat)) (lv mask sg : Nat)
    (par : Fin 65536) (target : Fin 256) (keys : Nat × Nat) (tok : Option (List Byte)),
    let m := s.fm
    let fm := fun (f : MeterSt) => (.next { s with fm := f } : Host.Outcome State Fault Refusal)
    let e := m.nj / 1000000
    answers (exec (.activityPostSend t) s) (fun s' => s'.mem = s.mem ∧ (s'.fm.transit = m.transit
        ∨ ∃ q, s'.fm.transit = m.transit ++ [q] ∧ q.tile = t.val ∧ q.seq = ((getT s t).actSeq + 1) % 2 ^ 32 ∧ (getT s' t).actSeq = q.seq))
    ∧ (m.transit = p :: rest → m.on = true → m.fault = false → m.posts.length < 4096 → answers (exec .activityPostReceive s) (fun s' =>
        s'.fm.transit = rest ∧ s'.fm.posts = m.posts ++ [p] ∧ mget s'.fm.lastSeq 0 p.tile = p.seq
        ∧ s'.fm.act = lmod m.act (m.map.getD p.tile 0) (· + activity m p)
        ∧ (p.seq = mget m.lastSeq 0 p.tile + 1 → p.seq < 2 ^ 32 → s'.fm.lost = m.lost)))
    ∧ (m.on = true → m.fault = false → m.from_.isSome = true → answers (exec (.energySample v i) s) (fun s' =>
        s'.fm.nj = m.nj + Config.adcEnergy m.volt m.curr v i ∧ s'.fm.cum = m.cum))
    ∧ (m.from_ = some from_ → from_ + 750000000 ≤ s.now → m.fault = false → answers (exec .meterIntervalEnd s) (fun s' =>
        s'.fm.cum = m.cum + e ∧ s'.fm.nj = m.nj % 1000000 ∧ s'.fm.intervals = m.intervals + 1 ∧ s'.fm.from_ = some (from_ + 750000000)
        ∧ s'.fm.act = List.replicate 64 0 ∧ s'.fm.lostNow = 0 ∧ nextIndex s'.fm = nextIndex m + 1
        ∧ (s'.fm.ledger.getLast?).map (fun r => (leAt r 0 8, leAt r 8 1)) = some (nextIndex m % 2 ^ 64, 1)))
    ∧ (dueBlock m = some n → m.keys = some keys → m.on = true → answers (exec .postmark s) (fun s' => s'.fm.blocks = n + 1
        ∧ (mfind s'.fm.marks n).isSome = true ∧ s'.fm.ledger = m.ledger))
    ∧ (m.chartMsgs = (index, map, bytes) :: msgs → m.on = true → logFull m = false → answers (exec .chartMessage s) (fun s' =>
        s'.fm.chartMsgs = msgs ∧ s'.fm.map = map ∧ s'.fm.meter = bytes ∧ s'.fm.cum = m.cum))
    ∧ (m.debugMsgs = (lv, mask, sg) :: dbg → m.on = true →
      (logFull m = false → answers (exec .debugEventReceive s) (fun s' => s'.fm.debugMsgs = dbg ∧ s'.fm.acks = m.acks + 1
        ∧ s'.fm.events = m.events + 1 ∧ nextIndex s'.fm = nextIndex m + 1))
      ∧ (logFull m = true → exec .debugEventReceive s = fm { m with debugMsgs := dbg }))
    ∧ (m.on = true →
      answers (exec .meterGetChallenge s) (fun s' => ∃ b, s'.fm.chal = some (b, s.now) ∧ b.length = 32 ∧ s'.out = s.out ++ [.sideband 3 b])
      ∧ (m.base ≤ index → index < nextIndex m → 1 ≤ n → n ≤ 16 → exec (.readLedger index n) s =
        .next { s with out := s.out ++ [.sideband 3 ((m.ledger.drop (index - m.base)).take n).flatten] })
      ∧ ((index < m.base ∨ nextIndex m ≤ index ∨ n = 0 ∨ 16 < n) → exec (.readLedger index n) s = fm { m with refusal := 1 })
      ∧ (mfind m.marks block = some h → m.keys = some keys → exec (.readPostmark block) s =
        .next { s with out := s.out ++ [.sideband 3 (h ++ Config.slhSignF keys.2 h)] })
      ∧ (mfind m.marks block = none → exec (.readPostmark block) s = fm { m with refusal := 1 })
      ∧ (1 ≤ par.val → par.val ≤ 4 → value.length = paramLen par.val → m.sealed = 0 → logFull m = false →
        answers (exec (.setParam par value tok) s) (fun s' => s'.fm.events = m.events + 1 ∧ (par.val = 1 → s'.fm.volt = value)
          ∧ (par.val = 2 → s'.fm.curr = value) ∧ (par.val = 3 → s'.fm.weights = value) ∧ (par.val = 4 → s'.fm.vkey = value)))
      ∧ (m.sealed = 1 → exec (.setParam par value none) s = fm { m with refusal := 1 })
      ∧ (m.sealed = 0 → m.keys.isSome = true → (target.val = 2 ∨ (target.val = 1 ∧ m.order = 1)) → logFull m = false →
        answers (exec (.seal target tok) s) (fun s' => s'.fm.sealed = target.val ∧ s'.fm.events = m.events + 1))
      ∧ (m.sealed = 0 → m.keys = none → answers (exec .meterProvision s) (fun s' => s'.fm.keys.isSome = true ∧ s'.fm.lost = 0))
      ∧ (m.sealed ≠ 0 → exec .meterProvision s = fm { m with refusal := 5 })
      ∧ (leAt img 6 2 = 2 → imageOk 0x4D46584C 2 (m.floors.getD 1 0) img = true →
        exec (.meterFwUpdate img tok) s = fm { m with staged := m.staged.set 1 img })
      ∧ (leAt img 6 2 = 1 → imageOk 0x4D46584C 1 (m.floors.getD 0 0) img = true → m.sealed = 0 → logFull m = false →
        exec (.meterFwUpdate img tok) s = fm { m with staged := m.staged.set 0 img })
      ∧ (s.su.mainGood = true → exec .windowPush s = fm { m with seq := m.seq + 2, window := windowBytes m s.now (m.seq + 2) })
      ∧ (m.fault = false → answers (exec .meterFault s) (fun s' => s'.fm.fault = true ∧ s'.fm.from_ = none
        ∧ s'.fm.cum = (if m.from_.isSome then m.cum + e else m.cum))))
    ∧ (m.chal = some (nonce, at_) → at_ + 750000000 ≤ s.now → exec .meterChallengeExpiry s = fm { m with chal := none })

/-! Errors and recovery -/

/-- RECOVERY. The active Lodestar posts the oldest record of the die whose turn it is, bytes from 0x08 before its SEQ; release tests run
on FATAL domains alone; heartbeats reach every die; a lost Lodestar is replaced, its session ended and a started AMEND interrupted; a die long without a heartbeat fences itself, and a
fatal fault fences a compute domain FATAL. -/
def Obligations.Recovery : Prop :=
  ∀ (s : State) (i : DieIdx) (r : ErrRec) (rest : List ErrRec) (mask : BitVec 16) (d : CDie) (pass : Bool) (at_ : Nat) (reason : BitVec 32),
    let W := getW s i.val
    let R := s.rec_
    let a := lbBase s + 0x11000 + 64 * (s.qf.errPosts % 1024)
    (lsAlive s = true →
      (mayPost s = true → diff32 s.qf.errPosts s.qf.errCons < 1024 → nextDie s = some i.val → W.errQ = r :: rest →
        answers (exec .errorRecordPost s) (fun s' => (getW s' i.val).errQ = rest ∧ s'.qf.errPosts = s.qf.errPosts + 1 ∧ s'.rec_.turn = (i.val + 1) % 32
          ∧ s'.out = s.out ++ [.post (a + 8) (errBytes r), .post a (toLE 8 (s.qf.errPosts + 1))]))
      ∧ answers (exec (.fenceReleaseTest mask) s) (fun s' =>
        s'.rec_.busy.testBit d.val = (R.busy.testBit d.val || (mask.getLsbD d.val && fenceCause s d == 2)) ∧ s'.lsFenced = s.lsFenced)
      ∧ (R.hbTick + 12500 ≤ s.now → answers (exec (.lsHeartbeat false) s) (fun s' => s'.rec_.hbSeq = R.hbSeq + 1 ∧ s'.rec_.hbTick = s.now
        ∧ ∀ j, j < 32 → (getW s' j).hbMark = s.now ∧ (getW s' j).hbSeq = R.hbSeq + 1))
      ∧ (peerAlive s = true → R.peerTick = some at_ → at_ + 12500 ≤ s.now → exec (.lsHeartbeat true) s =
        .next { s with rec_ := { R with peerSeq := R.peerSeq + 1, peerTick := some s.now } })
      ∧ (R.peerTick = some at_ → at_ + 37500 ≤ s.now → answers (exec .lsPeerLost s) (fun s' =>
        s'.rec_ = { R with held := R.held.set (1 - s.hx.activeLs) true, peerTick := none } ∧ s'.hx = s.hx)))
    ∧ (R.busy.testBit d.val = true → answers (exec (.releaseTestDone d pass) s) (fun s' => s'.rec_.busy.testBit d.val = false
        ∧ (pass = true → s'.rec_.passed.testBit d.val = true ∧ s'.rec_.failed.testBit d.val = false)
        ∧ (pass = false → s'.rec_.failed.testBit d.val = true ∧ s'.rec_.passed = R.passed)))
    ∧ (3 ≤ s.su.stage → s.su.hold = false → s.su.fail ≠ 1 → peerAlive s = true → R.hbTick + 37500 ≤ s.now → scanOpen s = false →
      answers (exec .lsFailover s) (fun s' => s'.hx.activeLs = 1 - s.hx.activeLs ∧ s'.rec_.failovers = (R.failovers + 1) % 65536
        ∧ s'.sec.session = none ∧ s'.sec.chal = none ∧ s'.chart = s.chart ∧ s'.mem = s.mem
        ∧ s'.rec_.held = R.held.set (1 - (1 - s.hx.activeLs)) true
        ∧ ((theAmend s).isSome = true → s.qf.amending = none → s'.ch.lastCode = 0x1C ∧ s'.ch.rejects = (s.ch.rejects + 1) % 2 ^ 32)))
    ∧ (W.wkState.toNat.testBit 4 = false → 3 ≤ s.su.stage → s.su.hold = false → W.hbMark + 625000 ≤ s.now → i.val ≠ 28 → i.val ≠ 29 → i.val ≠ 30 →
      answers (exec (.orphanFence i) s) (fun s' => (getW s' i.val).wkState.toNat.testBit 4 = true
        ∧ (i.val < 16 → fenceCause s i.val ≤ 1 → fenceCause s' i.val = 3) ∧ (i.val = 31 → s'.hx.stopped = true)
        ∧ (16 ≤ i.val → i.val < 28 → (getP s' (2 * (i.val - 16))).state = Port.reset.state ∧ (getP s' (2 * (i.val - 16))).tags = []
          ∧ (getP s' (2 * (i.val - 16))).replays = (getP s (2 * (i.val - 16))).replays)))
    ∧ (s.su.auxGood = true → s.su.mainOk = true →
      (i.val < 16 → answers (exec (.dieFatal i reason) s) (fun s' => fenceCause s' i.val = 2))
      ∧ (16 ≤ i.val → i.val < 28 → answers (exec (.dieFatal i reason) s) (fun s' => (i.val - 16) ∈ s'.link.linkFenced))
      ∧ (28 ≤ i.val → i.val < 30 → answers (exec (.dieFatal i reason) s) (fun s' => s'.rec_.held = R.held.set (i.val - 28) true))
      ∧ (i.val = 30 → answers (exec (.dieFatal i reason) s) (fun s' => s'.chart = s.chart ∧ s'.rec_ = R)))

/-! Start-up, reset, trim -/

/-- START-UP, RESET, TRIM, PINS. The inputs start and stop their domains; each start-up step follows the one before on its conditions;
PERST# and the warm resets enter the hold, which their ends leave; the trim commands keep and restore valid images; a thermal trip takes the
main rails off and holds THERMTRIP# for 12,500,000 ticks; I3C addresses are assigned. -/
def Obligations.StartupAndReset : Prop :=
  ∀ (s : State) (modId : Fin 16) (k : Fin 10) (bad : BitVec 28) (v : BitVec 64) (x : Sideband) (save : Bool) (b : List Byte) (i : DieIdx)
    (at_ n : Nat) (m : SpdmTarget) (dyn : BitVec 7),
    let u := s.su
    let su := fun (f : SuSt) => (.next { s with su := f } : Host.Outcome State Fault Refusal)
    let proceeds := u.mainGood = true ∧ u.again = false ∧ u.fail ≠ 1 ∧ lsAlive s = true
    let holds := fun (o : Instr) (p : Bool) => answers (exec o s) (fun s' => s'.su.hold = true ∧ s'.su.holdPerst = p ∧ s'.su.holdDone = false
      ∧ s'.su.stage = 1 ∧ s'.chart = none ∧ s'.qf.queues = [] ∧ s'.qf.fences = [] ∧ s'.hx.ready = false)
    let trims := lsManaged s = true ∧ trimRefused s = none
    (u.auxGood = false → answers (exec (.auxGood modId) s) (fun s' => s'.su.auxGood = true ∧ s'.su.modId = modId.val ∧ s'.fm.on = true
        ∧ nextIndex s'.fm ≥ nextIndex s.fm + 1))
    ∧ (u.mainGood = false → answers (exec .mainGood s) (fun s' => s'.su.mainGood = true ∧ (u.again = true → s'.su.stage = 1 ∧ s'.su.again = false)))
    ∧ (u.mainGood = true → answers (exec .mainLost s) (fun s' => s'.su.mainGood = false ∧ s'.su.mainOk = false ∧ s'.chart = none
        ∧ s'.su.dramKept = false ∧ s'.sec.session = none ∧ s'.fm.on = s.fm.on))
    ∧ (u.auxGood = true → answers (exec .auxLost s) (fun s' => s'.su.auxGood = false ∧ s'.fm.on = false ∧ s'.chart = none
        ∧ s'.sec.lifecycle = s.sec.lifecycle ∧ s'.sec.slots = s.sec.slots ∧ s'.ch.slots = s.ch.slots ∧ s'.su.trim = u.trim ∧ s'.rec_.stored = s.rec_.stored))
    ∧ (u.auxGood = true → u.hold = false →
      ((k = 1 ∧ u.stage = 0) ∨ (k = 2 ∧ u.stage = 1 ∧ u.fail = 0 ∧ (fwChoice s 0).isSome = true ∧ bad.toNat % 4 ≠ 3) ∨ (k = 3 ∧ u.stage = 2)
        ∨ (k = 4 ∧ u.stage = 3 ∧ proceeds) ∨ (k = 6 ∧ u.stage = 4 ∧ proceeds ∧ s.sec.wiping = false) ∨ (k = 7 ∧ u.stage = 6 ∧ proceeds)
        ∨ (k = 8 ∧ u.stage = 7 ∧ proceeds) ∨ (k = 9 ∧ u.stage = 8 ∧ proceeds)) →
      answers (exec (.startupStepDone k bad) s) (fun s' => s'.su.stage = k.val ∧ s'.su.hold = false))
    ∧ (u.perst = false → u.hold = false → u.auxGood = true → u.mainGood = true → 3 ≤ u.stage → holds .perstAssert true)
    ∧ exec .perstDeassert s = su { u with perst := false, hold := u.hold && !(u.holdPerst && u.holdDone) }
    ∧ (u.hold = true → exec .resetHoldDone s = su { u with holdDone := true, hold := u.holdPerst && u.perst })
    ∧ (u.hold = false →
      (u.mainOk = true → v.toNat % 65536 = 0x5752 → holds (.hxReset v) false)
      ∧ (lsManaged s = true → u.mainGood = true → holds .pldmOwnerReset false))
    ∧ (v.toNat % 65536 ≠ 0x5752 → exec (.hxReset v) s = .next s)
    ∧ (trims →
      exec (.trimRead x save) s = .next { s with out := s.out ++ [.sideband (transportCode x) (if save then u.save else u.trim)] }
      ∧ (trimValid b = true → exec (.trimWrite b) s = su { u with trim := b, trimPending := true })
      ∧ (trimValid b = false → exec (.trimWrite b) s = su { u with trimRefusal := 3 })
      ∧ exec .trimSave s = su { u with save := u.trim }
      ∧ (trimValid u.save = true → exec .trimRestore s = su { u with trim := u.save, trimPending := true }))
    ∧ (lsManaged s = true → trimRefused s = some n → exec (.trimWrite b) s = su { u with trimRefusal := n })
    ∧ (i.val < 28 → u.mainOk = true → (getW s i.val).wkState.toNat.testBit 1 = true → answers (exec (.thermalTrip i) s) (fun s' =>
        s'.su.mainOk = false ∧ s'.su.trip = some s.now ∧ s'.out.getLast? = some (.pin "THERMTRIP#" false) ∧ s'.chart = none))
    ∧ (u.trip = some at_ → at_ + 12500000 ≤ s.now →
      exec .thermtripRelease s = .next { s with su := { u with trip := none }, out := s.out ++ [.pin "THERMTRIP#" true] })
    ∧ (targetUp s m = true →
      exec (.i3cCcc (.entdaa m dyn)) s = su { u with dyn := u.dyn.set (match m with | .lodestar => 0 | .meter => 1) dyn.toNat })
    ∧ (∀ st : BitVec 7, st.toNat = staticAddr s .lodestar → targetUp s .lodestar = true →
      exec (.i3cCcc (.setdasa st dyn)) s = su { u with dyn := u.dyn.set 0 dyn.toNat })

/-! Instruction words -/

/-- DECODE AND ENCODE AGREE: every well-formed instruction command that has a word encodes to 32 bits that decode to it, every operand
kept; and a word that decodes to an instruction is the word of that instruction, so that no two words mean one instruction. -/
def Obligations.DecodeEncode : Prop :=
  (∀ (i : Instr) (w : Nat), wellFormed i = true → encodeWord i = some w → w < 2 ^ 32 ∧ ∃ t c, decodeWord t c w = some i)
  ∧ ∀ (t : TileId) (c : CtxId) (w : Nat) (i : Instr), w < 2 ^ 32 → decodeWord t c w = some i → encodeWord i = some w

/-- INVARIANT: every step keeps module memory in its canonical form, so that equal contents are equal data. -/
def Obligations.StepKeepsMemory : Prop :=
  ∀ (s s' : State), memWf s → step s = .next s' → memWf s'
end

