-- ==== Sys2Proof/Laws/Host.lean ====
section
/-!
SUPPORT. What the arrival of a host request can do (R307): alone it is performed, or waits for tokens; behind one that
waits it waits too.
-/

namespace Sys2Proof
namespace Machine

/-- Traffic twice in one tick is traffic once. -/
@[simp] theorem traffic_traffic (s : State) : traffic (traffic s) = traffic s := by
  have h : (traffic s).hx.lstate ≠ .l1 := by
    simp only [traffic]
    split
    · split <;> simp
    · assumption
  show ({ traffic s with hx := { (traffic s).hx with
    lastTraffic := s.now
    lstate := if (traffic s).hx.lstate = .l1 then _ else (traffic s).hx.lstate } } : State) = traffic s
  rw [if_neg h]; rfl

/-- The state in which a request of the host has arrived. -/
def hostAsked (s : State) (w : HostWait) : State :=
  { traffic s with hx := { (traffic s).hx with waiting := s.hx.waiting ++ [w] } }

theorem hostArrive_eq (s : State) (w : HostWait) : hostArrive s w = hostDrain (hostAsked s w) := rfl

/-- A request that finds none before it and need not wait is performed. -/
theorem hostArrive_performs {s t : State} {w : HostWait} (h : s.hx.waiting = [])
    (p : hostPerform (hostAsked s w) w = some t) : hostArrive s w = { t with hx := { t.hx with waiting := [] } } := by
  have e : (hostAsked s w).hx.waiting = [w] := by simp [hostAsked, h]
  simp only [hostArrive_eq, hostDrain, e, performWaits, p]

/-- A request that must wait, or that finds one before it that must, joins those that wait. -/
theorem hostArrive_waits {s : State} {w v : HostWait} {r : List HostWait} (h : s.hx.waiting ++ [w] = v :: r)
    (p : hostPerform (hostAsked s w) v = none) : hostArrive s w = hostAsked s w := by
  have e : (hostAsked s w).hx.waiting = v :: r := by simp [hostAsked, ← h]
  simp only [hostArrive_eq, hostDrain, e, performWaits, p]
  simp [hostAsked, h]

end Machine
end Sys2Proof
end

