-- ==== Sys2Proof/Laws/Maps.lean ====
section
/-!
SUPPORT. Sparse maps: reading back what was set, erased or left.
-/

namespace Sys2Proof
namespace Machine

/-- Reading a map after a set. -/
theorem mget_mset {α : Type} (m : SMap α) (d : α) (k j : Nat) (v : α) :
    mget (mset m k v) d j = if k = j then v else mget m d j := by
  induction m with
  | nil => simp [mset, mget]
  | cons p r ih =>
    obtain ⟨a, w⟩ := p
    simp only [mset]
    split
    · simp [mget]
    · split
      · subst k
        by_cases h : a = j <;> simp [mget, h]
      · by_cases h : a = j
        · subst h
          have : ¬ k = a := by assumption
          simp [mget, this]
        · simp [mget, h, ih]

@[simp] theorem mget_mset_same {α : Type} (m : SMap α) (d : α) (k : Nat) (v : α) : mget (mset m k v) d k = v := by
  simp [mget_mset]

theorem mget_mset_other {α : Type} (m : SMap α) (d : α) (k j : Nat) (v : α) (h : k ≠ j) :
    mget (mset m k v) d j = mget m d j := by
  simp [mget_mset, h]

/-- A second set of one key replaces the first. -/
@[simp] theorem mset_mset {α : Type} (m : SMap α) (k : Nat) (v w : α) : mset (mset m k v) k w = mset m k w := by
  induction m with
  | nil => simp [mset]
  | cons p r ih =>
    obtain ⟨a, x⟩ := p
    simp only [mset]
    by_cases h : k < a
    · simp [h, mset]
    · by_cases h2 : k = a
      · simp [h2, mset]
      · simp [h, h2, mset, ih]

/-- Reading a map after a set, as an option. -/
theorem mfind_mset {α : Type} (m : SMap α) (k j : Nat) (v : α) :
    mfind (mset m k v) j = if k = j then some v else mfind m j := by
  induction m with
  | nil => simp [mset, mfind]
  | cons p r ih =>
    obtain ⟨a, w⟩ := p
    simp only [mset]
    split
    · simp [mfind]
    · split
      · subst k
        by_cases h : a = j <;> simp [mfind, h]
      · by_cases h : a = j
        · subst h
          have : ¬ k = a := by assumption
          simp [mfind, this]
        · simp [mfind, h, ih]

/-- A key that has been erased is not found. -/
theorem mfind_merase {α : Type} (m : SMap α) (k j : Nat) :
    mfind (merase m k) j = if k = j then none else mfind m j := by
  induction m with
  | nil => simp [merase, mfind]
  | cons p r ih =>
    obtain ⟨a, w⟩ := p
    unfold merase at ih ⊢
    by_cases h : a = k
    · subst h
      by_cases hj : a = j <;> simp_all [mfind]
    · by_cases hj : a = j
      · subst hj
        have : ¬ k = a := fun e => h e.symm
        simp [h, mfind, this]
      · simp [h, mfind, hj, ih]

end Machine
end Sys2Proof
end

