-- ==== Sys2Proof/Laws/State.lean ====
section
/-!
SUPPORT. What each update of the state leaves and what it changes: one lemma per field per update.
-/

namespace Sys2Proof
namespace Machine

@[simp] theorem setT_pending (s : State) (t : Nat) (x : Tile) : (setT s t x).pending = s.pending := rfl
@[simp] theorem setT_now (s : State) (t : Nat) (x : Tile) : (setT s t x).now = s.now := rfl
@[simp] theorem setT_sram (s : State) (t : Nat) (x : Tile) : (setT s t x).sram = s.sram := rfl
@[simp] theorem setT_draws (s : State) (t : Nat) (x : Tile) : (setT s t x).draws = s.draws := rfl
@[simp] theorem setT_mem (s : State) (t : Nat) (x : Tile) : (setT s t x).mem = s.mem := rfl
@[simp] theorem setT_mpoison (s : State) (t : Nat) (x : Tile) : (setT s t x).mpoison = s.mpoison := rfl
@[simp] theorem setT_cdies (s : State) (t : Nat) (x : Tile) : (setT s t x).cdies = s.cdies := rfl
@[simp] theorem setT_wakes (s : State) (t : Nat) (x : Tile) : (setT s t x).wakes = s.wakes := rfl
@[simp] theorem setT_chart (s : State) (t : Nat) (x : Tile) : (setT s t x).chart = s.chart := rfl
@[simp] theorem setT_lsFenced (s : State) (t : Nat) (x : Tile) : (setT s t x).lsFenced = s.lsFenced := rfl
@[simp] theorem setT_bridgesDown (s : State) (t : Nat) (x : Tile) : (setT s t x).bridgesDown = s.bridgesDown := rfl
@[simp] theorem setT_link (s : State) (t : Nat) (x : Tile) : (setT s t x).link = s.link := rfl
@[simp] theorem setT_hx (s : State) (t : Nat) (x : Tile) : (setT s t x).hx = s.hx := rfl
@[simp] theorem setT_qf (s : State) (t : Nat) (x : Tile) : (setT s t x).qf = s.qf := rfl
@[simp] theorem setT_su (s : State) (t : Nat) (x : Tile) : (setT s t x).su = s.su := rfl
@[simp] theorem setT_ch (s : State) (t : Nat) (x : Tile) : (setT s t x).ch = s.ch := rfl
@[simp] theorem setT_pw (s : State) (t : Nat) (x : Tile) : (setT s t x).pw = s.pw := rfl
@[simp] theorem setT_rec (s : State) (t : Nat) (x : Tile) : (setT s t x).rec_ = s.rec_ := rfl
@[simp] theorem setT_sec (s : State) (t : Nat) (x : Tile) : (setT s t x).sec = s.sec := rfl
@[simp] theorem setT_fm (s : State) (t : Nat) (x : Tile) : (setT s t x).fm = s.fm := rfl
@[simp] theorem setT_rt (s : State) (t : Nat) (x : Tile) : (setT s t x).rt = s.rt := rfl
@[simp] theorem setT_out (s : State) (t : Nat) (x : Tile) : (setT s t x).out = s.out := rfl

@[simp] theorem modT_pending (s : State) (t : Nat) (f : Tile → Tile) : (modT s t f).pending = s.pending := rfl
@[simp] theorem modT_now (s : State) (t : Nat) (f : Tile → Tile) : (modT s t f).now = s.now := rfl
@[simp] theorem modT_sram (s : State) (t : Nat) (f : Tile → Tile) : (modT s t f).sram = s.sram := rfl
@[simp] theorem modT_draws (s : State) (t : Nat) (f : Tile → Tile) : (modT s t f).draws = s.draws := rfl
@[simp] theorem modT_mem (s : State) (t : Nat) (f : Tile → Tile) : (modT s t f).mem = s.mem := rfl
@[simp] theorem modT_mpoison (s : State) (t : Nat) (f : Tile → Tile) : (modT s t f).mpoison = s.mpoison := rfl
@[simp] theorem modT_cdies (s : State) (t : Nat) (f : Tile → Tile) : (modT s t f).cdies = s.cdies := rfl
@[simp] theorem modT_wakes (s : State) (t : Nat) (f : Tile → Tile) : (modT s t f).wakes = s.wakes := rfl
@[simp] theorem modT_chart (s : State) (t : Nat) (f : Tile → Tile) : (modT s t f).chart = s.chart := rfl
@[simp] theorem modT_lsFenced (s : State) (t : Nat) (f : Tile → Tile) : (modT s t f).lsFenced = s.lsFenced := rfl
@[simp] theorem modT_bridgesDown (s : State) (t : Nat) (f : Tile → Tile) : (modT s t f).bridgesDown = s.bridgesDown := rfl
@[simp] theorem modT_link (s : State) (t : Nat) (f : Tile → Tile) : (modT s t f).link = s.link := rfl
@[simp] theorem modT_hx (s : State) (t : Nat) (f : Tile → Tile) : (modT s t f).hx = s.hx := rfl
@[simp] theorem modT_qf (s : State) (t : Nat) (f : Tile → Tile) : (modT s t f).qf = s.qf := rfl
@[simp] theorem modT_su (s : State) (t : Nat) (f : Tile → Tile) : (modT s t f).su = s.su := rfl
@[simp] theorem modT_ch (s : State) (t : Nat) (f : Tile → Tile) : (modT s t f).ch = s.ch := rfl
@[simp] theorem modT_pw (s : State) (t : Nat) (f : Tile → Tile) : (modT s t f).pw = s.pw := rfl
@[simp] theorem modT_rec (s : State) (t : Nat) (f : Tile → Tile) : (modT s t f).rec_ = s.rec_ := rfl
@[simp] theorem modT_sec (s : State) (t : Nat) (f : Tile → Tile) : (modT s t f).sec = s.sec := rfl
@[simp] theorem modT_fm (s : State) (t : Nat) (f : Tile → Tile) : (modT s t f).fm = s.fm := rfl
@[simp] theorem modT_rt (s : State) (t : Nat) (f : Tile → Tile) : (modT s t f).rt = s.rt := rfl
@[simp] theorem modT_out (s : State) (t : Nat) (f : Tile → Tile) : (modT s t f).out = s.out := rfl

@[simp] theorem setC_pending (s : State) (t : Nat) (c : CtxId) (x : Ctx) : (setC s t c x).pending = s.pending := rfl
@[simp] theorem setC_now (s : State) (t : Nat) (c : CtxId) (x : Ctx) : (setC s t c x).now = s.now := rfl
@[simp] theorem setC_sram (s : State) (t : Nat) (c : CtxId) (x : Ctx) : (setC s t c x).sram = s.sram := rfl
@[simp] theorem setC_draws (s : State) (t : Nat) (c : CtxId) (x : Ctx) : (setC s t c x).draws = s.draws := rfl
@[simp] theorem setC_mem (s : State) (t : Nat) (c : CtxId) (x : Ctx) : (setC s t c x).mem = s.mem := rfl
@[simp] theorem setC_mpoison (s : State) (t : Nat) (c : CtxId) (x : Ctx) : (setC s t c x).mpoison = s.mpoison := rfl
@[simp] theorem setC_cdies (s : State) (t : Nat) (c : CtxId) (x : Ctx) : (setC s t c x).cdies = s.cdies := rfl
@[simp] theorem setC_wakes (s : State) (t : Nat) (c : CtxId) (x : Ctx) : (setC s t c x).wakes = s.wakes := rfl
@[simp] theorem setC_chart (s : State) (t : Nat) (c : CtxId) (x : Ctx) : (setC s t c x).chart = s.chart := rfl
@[simp] theorem setC_lsFenced (s : State) (t : Nat) (c : CtxId) (x : Ctx) : (setC s t c x).lsFenced = s.lsFenced := rfl
@[simp] theorem setC_bridgesDown (s : State) (t : Nat) (c : CtxId) (x : Ctx) : (setC s t c x).bridgesDown = s.bridgesDown := rfl
@[simp] theorem setC_link (s : State) (t : Nat) (c : CtxId) (x : Ctx) : (setC s t c x).link = s.link := rfl
@[simp] theorem setC_hx (s : State) (t : Nat) (c : CtxId) (x : Ctx) : (setC s t c x).hx = s.hx := rfl
@[simp] theorem setC_qf (s : State) (t : Nat) (c : CtxId) (x : Ctx) : (setC s t c x).qf = s.qf := rfl
@[simp] theorem setC_su (s : State) (t : Nat) (c : CtxId) (x : Ctx) : (setC s t c x).su = s.su := rfl
@[simp] theorem setC_ch (s : State) (t : Nat) (c : CtxId) (x : Ctx) : (setC s t c x).ch = s.ch := rfl
@[simp] theorem setC_pw (s : State) (t : Nat) (c : CtxId) (x : Ctx) : (setC s t c x).pw = s.pw := rfl
@[simp] theorem setC_rec (s : State) (t : Nat) (c : CtxId) (x : Ctx) : (setC s t c x).rec_ = s.rec_ := rfl
@[simp] theorem setC_sec (s : State) (t : Nat) (c : CtxId) (x : Ctx) : (setC s t c x).sec = s.sec := rfl
@[simp] theorem setC_fm (s : State) (t : Nat) (c : CtxId) (x : Ctx) : (setC s t c x).fm = s.fm := rfl
@[simp] theorem setC_rt (s : State) (t : Nat) (c : CtxId) (x : Ctx) : (setC s t c x).rt = s.rt := rfl
@[simp] theorem setC_out (s : State) (t : Nat) (c : CtxId) (x : Ctx) : (setC s t c x).out = s.out := rfl

@[simp] theorem modC_pending (s : State) (t : Nat) (c : CtxId) (f : Ctx → Ctx) : (modC s t c f).pending = s.pending := rfl
@[simp] theorem modC_now (s : State) (t : Nat) (c : CtxId) (f : Ctx → Ctx) : (modC s t c f).now = s.now := rfl
@[simp] theorem modC_sram (s : State) (t : Nat) (c : CtxId) (f : Ctx → Ctx) : (modC s t c f).sram = s.sram := rfl
@[simp] theorem modC_draws (s : State) (t : Nat) (c : CtxId) (f : Ctx → Ctx) : (modC s t c f).draws = s.draws := rfl
@[simp] theorem modC_mem (s : State) (t : Nat) (c : CtxId) (f : Ctx → Ctx) : (modC s t c f).mem = s.mem := rfl
@[simp] theorem modC_mpoison (s : State) (t : Nat) (c : CtxId) (f : Ctx → Ctx) : (modC s t c f).mpoison = s.mpoison := rfl
@[simp] theorem modC_cdies (s : State) (t : Nat) (c : CtxId) (f : Ctx → Ctx) : (modC s t c f).cdies = s.cdies := rfl
@[simp] theorem modC_wakes (s : State) (t : Nat) (c : CtxId) (f : Ctx → Ctx) : (modC s t c f).wakes = s.wakes := rfl
@[simp] theorem modC_chart (s : State) (t : Nat) (c : CtxId) (f : Ctx → Ctx) : (modC s t c f).chart = s.chart := rfl
@[simp] theorem modC_lsFenced (s : State) (t : Nat) (c : CtxId) (f : Ctx → Ctx) : (modC s t c f).lsFenced = s.lsFenced := rfl
@[simp] theorem modC_bridgesDown (s : State) (t : Nat) (c : CtxId) (f : Ctx → Ctx) : (modC s t c f).bridgesDown = s.bridgesDown := rfl
@[simp] theorem modC_link (s : State) (t : Nat) (c : CtxId) (f : Ctx → Ctx) : (modC s t c f).link = s.link := rfl
@[simp] theorem modC_hx (s : State) (t : Nat) (c : CtxId) (f : Ctx → Ctx) : (modC s t c f).hx = s.hx := rfl
@[simp] theorem modC_qf (s : State) (t : Nat) (c : CtxId) (f : Ctx → Ctx) : (modC s t c f).qf = s.qf := rfl
@[simp] theorem modC_su (s : State) (t : Nat) (c : CtxId) (f : Ctx → Ctx) : (modC s t c f).su = s.su := rfl
@[simp] theorem modC_ch (s : State) (t : Nat) (c : CtxId) (f : Ctx → Ctx) : (modC s t c f).ch = s.ch := rfl
@[simp] theorem modC_pw (s : State) (t : Nat) (c : CtxId) (f : Ctx → Ctx) : (modC s t c f).pw = s.pw := rfl
@[simp] theorem modC_rec (s : State) (t : Nat) (c : CtxId) (f : Ctx → Ctx) : (modC s t c f).rec_ = s.rec_ := rfl
@[simp] theorem modC_sec (s : State) (t : Nat) (c : CtxId) (f : Ctx → Ctx) : (modC s t c f).sec = s.sec := rfl
@[simp] theorem modC_fm (s : State) (t : Nat) (c : CtxId) (f : Ctx → Ctx) : (modC s t c f).fm = s.fm := rfl
@[simp] theorem modC_rt (s : State) (t : Nat) (c : CtxId) (f : Ctx → Ctx) : (modC s t c f).rt = s.rt := rfl
@[simp] theorem modC_out (s : State) (t : Nat) (c : CtxId) (f : Ctx → Ctx) : (modC s t c f).out = s.out := rfl

@[simp] theorem finish_pending (s : State) (t : Nat) (c : CtxId) (a : Option Nat) : (finish s t c a).pending = s.pending := rfl
@[simp] theorem finish_now (s : State) (t : Nat) (c : CtxId) (a : Option Nat) : (finish s t c a).now = s.now := rfl
@[simp] theorem finish_sram (s : State) (t : Nat) (c : CtxId) (a : Option Nat) : (finish s t c a).sram = s.sram := rfl
@[simp] theorem finish_draws (s : State) (t : Nat) (c : CtxId) (a : Option Nat) : (finish s t c a).draws = s.draws := rfl
@[simp] theorem finish_mem (s : State) (t : Nat) (c : CtxId) (a : Option Nat) : (finish s t c a).mem = s.mem := rfl
@[simp] theorem finish_mpoison (s : State) (t : Nat) (c : CtxId) (a : Option Nat) : (finish s t c a).mpoison = s.mpoison := rfl
@[simp] theorem finish_cdies (s : State) (t : Nat) (c : CtxId) (a : Option Nat) : (finish s t c a).cdies = s.cdies := rfl
@[simp] theorem finish_wakes (s : State) (t : Nat) (c : CtxId) (a : Option Nat) : (finish s t c a).wakes = s.wakes := rfl
@[simp] theorem finish_chart (s : State) (t : Nat) (c : CtxId) (a : Option Nat) : (finish s t c a).chart = s.chart := rfl
@[simp] theorem finish_lsFenced (s : State) (t : Nat) (c : CtxId) (a : Option Nat) : (finish s t c a).lsFenced = s.lsFenced := rfl
@[simp] theorem finish_bridgesDown (s : State) (t : Nat) (c : CtxId) (a : Option Nat) : (finish s t c a).bridgesDown = s.bridgesDown := rfl
@[simp] theorem finish_link (s : State) (t : Nat) (c : CtxId) (a : Option Nat) : (finish s t c a).link = s.link := rfl
@[simp] theorem finish_hx (s : State) (t : Nat) (c : CtxId) (a : Option Nat) : (finish s t c a).hx = s.hx := rfl
@[simp] theorem finish_qf (s : State) (t : Nat) (c : CtxId) (a : Option Nat) : (finish s t c a).qf = s.qf := rfl
@[simp] theorem finish_su (s : State) (t : Nat) (c : CtxId) (a : Option Nat) : (finish s t c a).su = s.su := rfl
@[simp] theorem finish_ch (s : State) (t : Nat) (c : CtxId) (a : Option Nat) : (finish s t c a).ch = s.ch := rfl
@[simp] theorem finish_pw (s : State) (t : Nat) (c : CtxId) (a : Option Nat) : (finish s t c a).pw = s.pw := rfl
@[simp] theorem finish_rec (s : State) (t : Nat) (c : CtxId) (a : Option Nat) : (finish s t c a).rec_ = s.rec_ := rfl
@[simp] theorem finish_sec (s : State) (t : Nat) (c : CtxId) (a : Option Nat) : (finish s t c a).sec = s.sec := rfl
@[simp] theorem finish_fm (s : State) (t : Nat) (c : CtxId) (a : Option Nat) : (finish s t c a).fm = s.fm := rfl
@[simp] theorem finish_rt (s : State) (t : Nat) (c : CtxId) (a : Option Nat) : (finish s t c a).rt = s.rt := rfl
@[simp] theorem finish_out (s : State) (t : Nat) (c : CtxId) (a : Option Nat) : (finish s t c a).out = s.out := rfl

@[simp] theorem setD_pending (s : State) (d : Nat) (x : CDieSt) : (setD s d x).pending = s.pending := rfl
@[simp] theorem setD_now (s : State) (d : Nat) (x : CDieSt) : (setD s d x).now = s.now := rfl
@[simp] theorem setD_draws (s : State) (d : Nat) (x : CDieSt) : (setD s d x).draws = s.draws := rfl
@[simp] theorem setD_tiles (s : State) (d : Nat) (x : CDieSt) : (setD s d x).tiles = s.tiles := rfl
@[simp] theorem setD_sram (s : State) (d : Nat) (x : CDieSt) : (setD s d x).sram = s.sram := rfl
@[simp] theorem setD_mem (s : State) (d : Nat) (x : CDieSt) : (setD s d x).mem = s.mem := rfl
@[simp] theorem setD_mpoison (s : State) (d : Nat) (x : CDieSt) : (setD s d x).mpoison = s.mpoison := rfl
@[simp] theorem setD_wakes (s : State) (d : Nat) (x : CDieSt) : (setD s d x).wakes = s.wakes := rfl
@[simp] theorem setD_chart (s : State) (d : Nat) (x : CDieSt) : (setD s d x).chart = s.chart := rfl
@[simp] theorem setD_lsFenced (s : State) (d : Nat) (x : CDieSt) : (setD s d x).lsFenced = s.lsFenced := rfl
@[simp] theorem setD_bridgesDown (s : State) (d : Nat) (x : CDieSt) : (setD s d x).bridgesDown = s.bridgesDown := rfl
@[simp] theorem setD_link (s : State) (d : Nat) (x : CDieSt) : (setD s d x).link = s.link := rfl
@[simp] theorem setD_hx (s : State) (d : Nat) (x : CDieSt) : (setD s d x).hx = s.hx := rfl
@[simp] theorem setD_qf (s : State) (d : Nat) (x : CDieSt) : (setD s d x).qf = s.qf := rfl
@[simp] theorem setD_su (s : State) (d : Nat) (x : CDieSt) : (setD s d x).su = s.su := rfl
@[simp] theorem setD_ch (s : State) (d : Nat) (x : CDieSt) : (setD s d x).ch = s.ch := rfl
@[simp] theorem setD_pw (s : State) (d : Nat) (x : CDieSt) : (setD s d x).pw = s.pw := rfl
@[simp] theorem setD_rec (s : State) (d : Nat) (x : CDieSt) : (setD s d x).rec_ = s.rec_ := rfl
@[simp] theorem setD_sec (s : State) (d : Nat) (x : CDieSt) : (setD s d x).sec = s.sec := rfl
@[simp] theorem setD_fm (s : State) (d : Nat) (x : CDieSt) : (setD s d x).fm = s.fm := rfl
@[simp] theorem setD_rt (s : State) (d : Nat) (x : CDieSt) : (setD s d x).rt = s.rt := rfl
@[simp] theorem setD_out (s : State) (d : Nat) (x : CDieSt) : (setD s d x).out = s.out := rfl

@[simp] theorem setW_pending (s : State) (d : Nat) (x : WakeSt) : (setW s d x).pending = s.pending := rfl
@[simp] theorem setW_now (s : State) (d : Nat) (x : WakeSt) : (setW s d x).now = s.now := rfl
@[simp] theorem setW_draws (s : State) (d : Nat) (x : WakeSt) : (setW s d x).draws = s.draws := rfl
@[simp] theorem setW_tiles (s : State) (d : Nat) (x : WakeSt) : (setW s d x).tiles = s.tiles := rfl
@[simp] theorem setW_sram (s : State) (d : Nat) (x : WakeSt) : (setW s d x).sram = s.sram := rfl
@[simp] theorem setW_mem (s : State) (d : Nat) (x : WakeSt) : (setW s d x).mem = s.mem := rfl
@[simp] theorem setW_mpoison (s : State) (d : Nat) (x : WakeSt) : (setW s d x).mpoison = s.mpoison := rfl
@[simp] theorem setW_cdies (s : State) (d : Nat) (x : WakeSt) : (setW s d x).cdies = s.cdies := rfl
@[simp] theorem setW_chart (s : State) (d : Nat) (x : WakeSt) : (setW s d x).chart = s.chart := rfl
@[simp] theorem setW_lsFenced (s : State) (d : Nat) (x : WakeSt) : (setW s d x).lsFenced = s.lsFenced := rfl
@[simp] theorem setW_bridgesDown (s : State) (d : Nat) (x : WakeSt) : (setW s d x).bridgesDown = s.bridgesDown := rfl
@[simp] theorem setW_link (s : State) (d : Nat) (x : WakeSt) : (setW s d x).link = s.link := rfl
@[simp] theorem setW_hx (s : State) (d : Nat) (x : WakeSt) : (setW s d x).hx = s.hx := rfl
@[simp] theorem setW_qf (s : State) (d : Nat) (x : WakeSt) : (setW s d x).qf = s.qf := rfl
@[simp] theorem setW_su (s : State) (d : Nat) (x : WakeSt) : (setW s d x).su = s.su := rfl
@[simp] theorem setW_ch (s : State) (d : Nat) (x : WakeSt) : (setW s d x).ch = s.ch := rfl
@[simp] theorem setW_pw (s : State) (d : Nat) (x : WakeSt) : (setW s d x).pw = s.pw := rfl
@[simp] theorem setW_rec (s : State) (d : Nat) (x : WakeSt) : (setW s d x).rec_ = s.rec_ := rfl
@[simp] theorem setW_sec (s : State) (d : Nat) (x : WakeSt) : (setW s d x).sec = s.sec := rfl
@[simp] theorem setW_fm (s : State) (d : Nat) (x : WakeSt) : (setW s d x).fm = s.fm := rfl
@[simp] theorem setW_rt (s : State) (d : Nat) (x : WakeSt) : (setW s d x).rt = s.rt := rfl
@[simp] theorem setW_out (s : State) (d : Nat) (x : WakeSt) : (setW s d x).out = s.out := rfl

@[simp] theorem setE_pending (s : State) (l : Nat) (e : Engine) : (setE s l e).pending = s.pending := rfl
@[simp] theorem setE_now (s : State) (l : Nat) (e : Engine) : (setE s l e).now = s.now := rfl
@[simp] theorem setE_draws (s : State) (l : Nat) (e : Engine) : (setE s l e).draws = s.draws := rfl
@[simp] theorem setE_tiles (s : State) (l : Nat) (e : Engine) : (setE s l e).tiles = s.tiles := rfl
@[simp] theorem setE_sram (s : State) (l : Nat) (e : Engine) : (setE s l e).sram = s.sram := rfl
@[simp] theorem setE_mem (s : State) (l : Nat) (e : Engine) : (setE s l e).mem = s.mem := rfl
@[simp] theorem setE_mpoison (s : State) (l : Nat) (e : Engine) : (setE s l e).mpoison = s.mpoison := rfl
@[simp] theorem setE_cdies (s : State) (l : Nat) (e : Engine) : (setE s l e).cdies = s.cdies := rfl
@[simp] theorem setE_wakes (s : State) (l : Nat) (e : Engine) : (setE s l e).wakes = s.wakes := rfl
@[simp] theorem setE_chart (s : State) (l : Nat) (e : Engine) : (setE s l e).chart = s.chart := rfl
@[simp] theorem setE_lsFenced (s : State) (l : Nat) (e : Engine) : (setE s l e).lsFenced = s.lsFenced := rfl
@[simp] theorem setE_bridgesDown (s : State) (l : Nat) (e : Engine) : (setE s l e).bridgesDown = s.bridgesDown := rfl
@[simp] theorem setE_hx (s : State) (l : Nat) (e : Engine) : (setE s l e).hx = s.hx := rfl
@[simp] theorem setE_qf (s : State) (l : Nat) (e : Engine) : (setE s l e).qf = s.qf := rfl
@[simp] theorem setE_su (s : State) (l : Nat) (e : Engine) : (setE s l e).su = s.su := rfl
@[simp] theorem setE_ch (s : State) (l : Nat) (e : Engine) : (setE s l e).ch = s.ch := rfl
@[simp] theorem setE_pw (s : State) (l : Nat) (e : Engine) : (setE s l e).pw = s.pw := rfl
@[simp] theorem setE_rec (s : State) (l : Nat) (e : Engine) : (setE s l e).rec_ = s.rec_ := rfl
@[simp] theorem setE_sec (s : State) (l : Nat) (e : Engine) : (setE s l e).sec = s.sec := rfl
@[simp] theorem setE_fm (s : State) (l : Nat) (e : Engine) : (setE s l e).fm = s.fm := rfl
@[simp] theorem setE_rt (s : State) (l : Nat) (e : Engine) : (setE s l e).rt = s.rt := rfl
@[simp] theorem setE_out (s : State) (l : Nat) (e : Engine) : (setE s l e).out = s.out := rfl

@[simp] theorem setP_pending (s : State) (p : Nat) (x : Port) : (setP s p x).pending = s.pending := rfl
@[simp] theorem setP_now (s : State) (p : Nat) (x : Port) : (setP s p x).now = s.now := rfl
@[simp] theorem setP_draws (s : State) (p : Nat) (x : Port) : (setP s p x).draws = s.draws := rfl
@[simp] theorem setP_tiles (s : State) (p : Nat) (x : Port) : (setP s p x).tiles = s.tiles := rfl
@[simp] theorem setP_sram (s : State) (p : Nat) (x : Port) : (setP s p x).sram = s.sram := rfl
@[simp] theorem setP_mem (s : State) (p : Nat) (x : Port) : (setP s p x).mem = s.mem := rfl
@[simp] theorem setP_mpoison (s : State) (p : Nat) (x : Port) : (setP s p x).mpoison = s.mpoison := rfl
@[simp] theorem setP_cdies (s : State) (p : Nat) (x : Port) : (setP s p x).cdies = s.cdies := rfl
@[simp] theorem setP_wakes (s : State) (p : Nat) (x : Port) : (setP s p x).wakes = s.wakes := rfl
@[simp] theorem setP_chart (s : State) (p : Nat) (x : Port) : (setP s p x).chart = s.chart := rfl
@[simp] theorem setP_lsFenced (s : State) (p : Nat) (x : Port) : (setP s p x).lsFenced = s.lsFenced := rfl
@[simp] theorem setP_bridgesDown (s : State) (p : Nat) (x : Port) : (setP s p x).bridgesDown = s.bridgesDown := rfl
@[simp] theorem setP_hx (s : State) (p : Nat) (x : Port) : (setP s p x).hx = s.hx := rfl
@[simp] theorem setP_qf (s : State) (p : Nat) (x : Port) : (setP s p x).qf = s.qf := rfl
@[simp] theorem setP_su (s : State) (p : Nat) (x : Port) : (setP s p x).su = s.su := rfl
@[simp] theorem setP_ch (s : State) (p : Nat) (x : Port) : (setP s p x).ch = s.ch := rfl
@[simp] theorem setP_pw (s : State) (p : Nat) (x : Port) : (setP s p x).pw = s.pw := rfl
@[simp] theorem setP_rec (s : State) (p : Nat) (x : Port) : (setP s p x).rec_ = s.rec_ := rfl
@[simp] theorem setP_sec (s : State) (p : Nat) (x : Port) : (setP s p x).sec = s.sec := rfl
@[simp] theorem setP_fm (s : State) (p : Nat) (x : Port) : (setP s p x).fm = s.fm := rfl
@[simp] theorem setP_rt (s : State) (p : Nat) (x : Port) : (setP s p x).rt = s.rt := rfl
@[simp] theorem setP_out (s : State) (p : Nat) (x : Port) : (setP s p x).out = s.out := rfl

@[simp] theorem modF_pending (s : State) (f : QfSt → QfSt) : (modF s f).pending = s.pending := rfl
@[simp] theorem modF_now (s : State) (f : QfSt → QfSt) : (modF s f).now = s.now := rfl
@[simp] theorem modF_draws (s : State) (f : QfSt → QfSt) : (modF s f).draws = s.draws := rfl
@[simp] theorem modF_tiles (s : State) (f : QfSt → QfSt) : (modF s f).tiles = s.tiles := rfl
@[simp] theorem modF_sram (s : State) (f : QfSt → QfSt) : (modF s f).sram = s.sram := rfl
@[simp] theorem modF_mem (s : State) (f : QfSt → QfSt) : (modF s f).mem = s.mem := rfl
@[simp] theorem modF_mpoison (s : State) (f : QfSt → QfSt) : (modF s f).mpoison = s.mpoison := rfl
@[simp] theorem modF_cdies (s : State) (f : QfSt → QfSt) : (modF s f).cdies = s.cdies := rfl
@[simp] theorem modF_wakes (s : State) (f : QfSt → QfSt) : (modF s f).wakes = s.wakes := rfl
@[simp] theorem modF_chart (s : State) (f : QfSt → QfSt) : (modF s f).chart = s.chart := rfl
@[simp] theorem modF_lsFenced (s : State) (f : QfSt → QfSt) : (modF s f).lsFenced = s.lsFenced := rfl
@[simp] theorem modF_bridgesDown (s : State) (f : QfSt → QfSt) : (modF s f).bridgesDown = s.bridgesDown := rfl
@[simp] theorem modF_link (s : State) (f : QfSt → QfSt) : (modF s f).link = s.link := rfl
@[simp] theorem modF_hx (s : State) (f : QfSt → QfSt) : (modF s f).hx = s.hx := rfl
@[simp] theorem modF_su (s : State) (f : QfSt → QfSt) : (modF s f).su = s.su := rfl
@[simp] theorem modF_ch (s : State) (f : QfSt → QfSt) : (modF s f).ch = s.ch := rfl
@[simp] theorem modF_pw (s : State) (f : QfSt → QfSt) : (modF s f).pw = s.pw := rfl
@[simp] theorem modF_rec (s : State) (f : QfSt → QfSt) : (modF s f).rec_ = s.rec_ := rfl
@[simp] theorem modF_sec (s : State) (f : QfSt → QfSt) : (modF s f).sec = s.sec := rfl
@[simp] theorem modF_fm (s : State) (f : QfSt → QfSt) : (modF s f).fm = s.fm := rfl
@[simp] theorem modF_rt (s : State) (f : QfSt → QfSt) : (modF s f).rt = s.rt := rfl
@[simp] theorem modF_out (s : State) (f : QfSt → QfSt) : (modF s f).out = s.out := rfl

@[simp] theorem modRt_pending (s : State) (f : RtSt → RtSt) : (modRt s f).pending = s.pending := rfl
@[simp] theorem modRt_now (s : State) (f : RtSt → RtSt) : (modRt s f).now = s.now := rfl
@[simp] theorem modRt_draws (s : State) (f : RtSt → RtSt) : (modRt s f).draws = s.draws := rfl
@[simp] theorem modRt_tiles (s : State) (f : RtSt → RtSt) : (modRt s f).tiles = s.tiles := rfl
@[simp] theorem modRt_sram (s : State) (f : RtSt → RtSt) : (modRt s f).sram = s.sram := rfl
@[simp] theorem modRt_mem (s : State) (f : RtSt → RtSt) : (modRt s f).mem = s.mem := rfl
@[simp] theorem modRt_mpoison (s : State) (f : RtSt → RtSt) : (modRt s f).mpoison = s.mpoison := rfl
@[simp] theorem modRt_cdies (s : State) (f : RtSt → RtSt) : (modRt s f).cdies = s.cdies := rfl
@[simp] theorem modRt_wakes (s : State) (f : RtSt → RtSt) : (modRt s f).wakes = s.wakes := rfl
@[simp] theorem modRt_chart (s : State) (f : RtSt → RtSt) : (modRt s f).chart = s.chart := rfl
@[simp] theorem modRt_lsFenced (s : State) (f : RtSt → RtSt) : (modRt s f).lsFenced = s.lsFenced := rfl
@[simp] theorem modRt_bridgesDown (s : State) (f : RtSt → RtSt) : (modRt s f).bridgesDown = s.bridgesDown := rfl
@[simp] theorem modRt_link (s : State) (f : RtSt → RtSt) : (modRt s f).link = s.link := rfl
@[simp] theorem modRt_hx (s : State) (f : RtSt → RtSt) : (modRt s f).hx = s.hx := rfl
@[simp] theorem modRt_qf (s : State) (f : RtSt → RtSt) : (modRt s f).qf = s.qf := rfl
@[simp] theorem modRt_su (s : State) (f : RtSt → RtSt) : (modRt s f).su = s.su := rfl
@[simp] theorem modRt_ch (s : State) (f : RtSt → RtSt) : (modRt s f).ch = s.ch := rfl
@[simp] theorem modRt_pw (s : State) (f : RtSt → RtSt) : (modRt s f).pw = s.pw := rfl
@[simp] theorem modRt_rec (s : State) (f : RtSt → RtSt) : (modRt s f).rec_ = s.rec_ := rfl
@[simp] theorem modRt_sec (s : State) (f : RtSt → RtSt) : (modRt s f).sec = s.sec := rfl
@[simp] theorem modRt_fm (s : State) (f : RtSt → RtSt) : (modRt s f).fm = s.fm := rfl
@[simp] theorem modRt_out (s : State) (f : RtSt → RtSt) : (modRt s f).out = s.out := rfl

@[simp] theorem emit_pending (s : State) (o : Out) : (emit s o).pending = s.pending := rfl
@[simp] theorem emit_now (s : State) (o : Out) : (emit s o).now = s.now := rfl
@[simp] theorem emit_draws (s : State) (o : Out) : (emit s o).draws = s.draws := rfl
@[simp] theorem emit_tiles (s : State) (o : Out) : (emit s o).tiles = s.tiles := rfl
@[simp] theorem emit_sram (s : State) (o : Out) : (emit s o).sram = s.sram := rfl
@[simp] theorem emit_mem (s : State) (o : Out) : (emit s o).mem = s.mem := rfl
@[simp] theorem emit_mpoison (s : State) (o : Out) : (emit s o).mpoison = s.mpoison := rfl
@[simp] theorem emit_cdies (s : State) (o : Out) : (emit s o).cdies = s.cdies := rfl
@[simp] theorem emit_wakes (s : State) (o : Out) : (emit s o).wakes = s.wakes := rfl
@[simp] theorem emit_chart (s : State) (o : Out) : (emit s o).chart = s.chart := rfl
@[simp] theorem emit_lsFenced (s : State) (o : Out) : (emit s o).lsFenced = s.lsFenced := rfl
@[simp] theorem emit_bridgesDown (s : State) (o : Out) : (emit s o).bridgesDown = s.bridgesDown := rfl
@[simp] theorem emit_link (s : State) (o : Out) : (emit s o).link = s.link := rfl
@[simp] theorem emit_hx (s : State) (o : Out) : (emit s o).hx = s.hx := rfl
@[simp] theorem emit_qf (s : State) (o : Out) : (emit s o).qf = s.qf := rfl
@[simp] theorem emit_su (s : State) (o : Out) : (emit s o).su = s.su := rfl
@[simp] theorem emit_ch (s : State) (o : Out) : (emit s o).ch = s.ch := rfl
@[simp] theorem emit_pw (s : State) (o : Out) : (emit s o).pw = s.pw := rfl
@[simp] theorem emit_rec (s : State) (o : Out) : (emit s o).rec_ = s.rec_ := rfl
@[simp] theorem emit_sec (s : State) (o : Out) : (emit s o).sec = s.sec := rfl
@[simp] theorem emit_fm (s : State) (o : Out) : (emit s o).fm = s.fm := rfl
@[simp] theorem emit_rt (s : State) (o : Out) : (emit s o).rt = s.rt := rfl

@[simp] theorem traffic_pending (s : State) : (traffic s).pending = s.pending := rfl
@[simp] theorem traffic_now (s : State) : (traffic s).now = s.now := rfl
@[simp] theorem traffic_draws (s : State) : (traffic s).draws = s.draws := rfl
@[simp] theorem traffic_tiles (s : State) : (traffic s).tiles = s.tiles := rfl
@[simp] theorem traffic_sram (s : State) : (traffic s).sram = s.sram := rfl
@[simp] theorem traffic_mem (s : State) : (traffic s).mem = s.mem := rfl
@[simp] theorem traffic_mpoison (s : State) : (traffic s).mpoison = s.mpoison := rfl
@[simp] theorem traffic_cdies (s : State) : (traffic s).cdies = s.cdies := rfl
@[simp] theorem traffic_wakes (s : State) : (traffic s).wakes = s.wakes := rfl
@[simp] theorem traffic_chart (s : State) : (traffic s).chart = s.chart := rfl
@[simp] theorem traffic_lsFenced (s : State) : (traffic s).lsFenced = s.lsFenced := rfl
@[simp] theorem traffic_bridgesDown (s : State) : (traffic s).bridgesDown = s.bridgesDown := rfl
@[simp] theorem traffic_link (s : State) : (traffic s).link = s.link := rfl
@[simp] theorem traffic_qf (s : State) : (traffic s).qf = s.qf := rfl
@[simp] theorem traffic_su (s : State) : (traffic s).su = s.su := rfl
@[simp] theorem traffic_ch (s : State) : (traffic s).ch = s.ch := rfl
@[simp] theorem traffic_pw (s : State) : (traffic s).pw = s.pw := rfl
@[simp] theorem traffic_rec (s : State) : (traffic s).rec_ = s.rec_ := rfl
@[simp] theorem traffic_sec (s : State) : (traffic s).sec = s.sec := rfl
@[simp] theorem traffic_fm (s : State) : (traffic s).fm = s.fm := rfl
@[simp] theorem traffic_rt (s : State) : (traffic s).rt = s.rt := rfl
@[simp] theorem traffic_out (s : State) : (traffic s).out = s.out := rfl

@[simp] theorem setQ_pending (s : State) (q : Nat) (x : Queue) : (setQ s q x).pending = s.pending := rfl
@[simp] theorem setQ_now (s : State) (q : Nat) (x : Queue) : (setQ s q x).now = s.now := rfl
@[simp] theorem setQ_draws (s : State) (q : Nat) (x : Queue) : (setQ s q x).draws = s.draws := rfl
@[simp] theorem setQ_tiles (s : State) (q : Nat) (x : Queue) : (setQ s q x).tiles = s.tiles := rfl
@[simp] theorem setQ_sram (s : State) (q : Nat) (x : Queue) : (setQ s q x).sram = s.sram := rfl
@[simp] theorem setQ_mem (s : State) (q : Nat) (x : Queue) : (setQ s q x).mem = s.mem := rfl
@[simp] theorem setQ_mpoison (s : State) (q : Nat) (x : Queue) : (setQ s q x).mpoison = s.mpoison := rfl
@[simp] theorem setQ_cdies (s : State) (q : Nat) (x : Queue) : (setQ s q x).cdies = s.cdies := rfl
@[simp] theorem setQ_wakes (s : State) (q : Nat) (x : Queue) : (setQ s q x).wakes = s.wakes := rfl
@[simp] theorem setQ_chart (s : State) (q : Nat) (x : Queue) : (setQ s q x).chart = s.chart := rfl
@[simp] theorem setQ_lsFenced (s : State) (q : Nat) (x : Queue) : (setQ s q x).lsFenced = s.lsFenced := rfl
@[simp] theorem setQ_bridgesDown (s : State) (q : Nat) (x : Queue) : (setQ s q x).bridgesDown = s.bridgesDown := rfl
@[simp] theorem setQ_link (s : State) (q : Nat) (x : Queue) : (setQ s q x).link = s.link := rfl
@[simp] theorem setQ_hx (s : State) (q : Nat) (x : Queue) : (setQ s q x).hx = s.hx := rfl
@[simp] theorem setQ_su (s : State) (q : Nat) (x : Queue) : (setQ s q x).su = s.su := rfl
@[simp] theorem setQ_ch (s : State) (q : Nat) (x : Queue) : (setQ s q x).ch = s.ch := rfl
@[simp] theorem setQ_pw (s : State) (q : Nat) (x : Queue) : (setQ s q x).pw = s.pw := rfl
@[simp] theorem setQ_rec (s : State) (q : Nat) (x : Queue) : (setQ s q x).rec_ = s.rec_ := rfl
@[simp] theorem setQ_sec (s : State) (q : Nat) (x : Queue) : (setQ s q x).sec = s.sec := rfl
@[simp] theorem setQ_fm (s : State) (q : Nat) (x : Queue) : (setQ s q x).fm = s.fm := rfl
@[simp] theorem setQ_rt (s : State) (q : Nat) (x : Queue) : (setQ s q x).rt = s.rt := rfl
@[simp] theorem setQ_out (s : State) (q : Nat) (x : Queue) : (setQ s q x).out = s.out := rfl

@[simp] theorem setPort_pending (s : State) (p : Nat) (x : Port) : (setPort s p x).pending = s.pending := rfl
@[simp] theorem setPort_now (s : State) (p : Nat) (x : Port) : (setPort s p x).now = s.now := rfl
@[simp] theorem setPort_draws (s : State) (p : Nat) (x : Port) : (setPort s p x).draws = s.draws := rfl
@[simp] theorem setPort_tiles (s : State) (p : Nat) (x : Port) : (setPort s p x).tiles = s.tiles := rfl
@[simp] theorem setPort_sram (s : State) (p : Nat) (x : Port) : (setPort s p x).sram = s.sram := rfl
@[simp] theorem setPort_mem (s : State) (p : Nat) (x : Port) : (setPort s p x).mem = s.mem := rfl
@[simp] theorem setPort_mpoison (s : State) (p : Nat) (x : Port) : (setPort s p x).mpoison = s.mpoison := rfl
@[simp] theorem setPort_cdies (s : State) (p : Nat) (x : Port) : (setPort s p x).cdies = s.cdies := rfl
@[simp] theorem setPort_wakes (s : State) (p : Nat) (x : Port) : (setPort s p x).wakes = s.wakes := rfl
@[simp] theorem setPort_chart (s : State) (p : Nat) (x : Port) : (setPort s p x).chart = s.chart := rfl
@[simp] theorem setPort_lsFenced (s : State) (p : Nat) (x : Port) : (setPort s p x).lsFenced = s.lsFenced := rfl
@[simp] theorem setPort_bridgesDown (s : State) (p : Nat) (x : Port) : (setPort s p x).bridgesDown = s.bridgesDown := rfl
@[simp] theorem setPort_hx (s : State) (p : Nat) (x : Port) : (setPort s p x).hx = s.hx := rfl
@[simp] theorem setPort_qf (s : State) (p : Nat) (x : Port) : (setPort s p x).qf = s.qf := rfl
@[simp] theorem setPort_su (s : State) (p : Nat) (x : Port) : (setPort s p x).su = s.su := rfl
@[simp] theorem setPort_ch (s : State) (p : Nat) (x : Port) : (setPort s p x).ch = s.ch := rfl
@[simp] theorem setPort_pw (s : State) (p : Nat) (x : Port) : (setPort s p x).pw = s.pw := rfl
@[simp] theorem setPort_rec (s : State) (p : Nat) (x : Port) : (setPort s p x).rec_ = s.rec_ := rfl
@[simp] theorem setPort_sec (s : State) (p : Nat) (x : Port) : (setPort s p x).sec = s.sec := rfl
@[simp] theorem setPort_fm (s : State) (p : Nat) (x : Port) : (setPort s p x).fm = s.fm := rfl
@[simp] theorem setPort_rt (s : State) (p : Nat) (x : Port) : (setPort s p x).rt = s.rt := rfl
@[simp] theorem setPort_out (s : State) (p : Nat) (x : Port) : (setPort s p x).out = s.out := rfl

@[simp] theorem modM_pending (s : State) (f : MeterSt → MeterSt) : (modM s f).pending = s.pending := rfl
@[simp] theorem modM_now (s : State) (f : MeterSt → MeterSt) : (modM s f).now = s.now := rfl
@[simp] theorem modM_draws (s : State) (f : MeterSt → MeterSt) : (modM s f).draws = s.draws := rfl
@[simp] theorem modM_tiles (s : State) (f : MeterSt → MeterSt) : (modM s f).tiles = s.tiles := rfl
@[simp] theorem modM_sram (s : State) (f : MeterSt → MeterSt) : (modM s f).sram = s.sram := rfl
@[simp] theorem modM_mem (s : State) (f : MeterSt → MeterSt) : (modM s f).mem = s.mem := rfl
@[simp] theorem modM_mpoison (s : State) (f : MeterSt → MeterSt) : (modM s f).mpoison = s.mpoison := rfl
@[simp] theorem modM_cdies (s : State) (f : MeterSt → MeterSt) : (modM s f).cdies = s.cdies := rfl
@[simp] theorem modM_wakes (s : State) (f : MeterSt → MeterSt) : (modM s f).wakes = s.wakes := rfl
@[simp] theorem modM_chart (s : State) (f : MeterSt → MeterSt) : (modM s f).chart = s.chart := rfl
@[simp] theorem modM_lsFenced (s : State) (f : MeterSt → MeterSt) : (modM s f).lsFenced = s.lsFenced := rfl
@[simp] theorem modM_bridgesDown (s : State) (f : MeterSt → MeterSt) : (modM s f).bridgesDown = s.bridgesDown := rfl
@[simp] theorem modM_link (s : State) (f : MeterSt → MeterSt) : (modM s f).link = s.link := rfl
@[simp] theorem modM_hx (s : State) (f : MeterSt → MeterSt) : (modM s f).hx = s.hx := rfl
@[simp] theorem modM_qf (s : State) (f : MeterSt → MeterSt) : (modM s f).qf = s.qf := rfl
@[simp] theorem modM_su (s : State) (f : MeterSt → MeterSt) : (modM s f).su = s.su := rfl
@[simp] theorem modM_ch (s : State) (f : MeterSt → MeterSt) : (modM s f).ch = s.ch := rfl
@[simp] theorem modM_pw (s : State) (f : MeterSt → MeterSt) : (modM s f).pw = s.pw := rfl
@[simp] theorem modM_rec (s : State) (f : MeterSt → MeterSt) : (modM s f).rec_ = s.rec_ := rfl
@[simp] theorem modM_sec (s : State) (f : MeterSt → MeterSt) : (modM s f).sec = s.sec := rfl
@[simp] theorem modM_rt (s : State) (f : MeterSt → MeterSt) : (modM s f).rt = s.rt := rfl
@[simp] theorem modM_out (s : State) (f : MeterSt → MeterSt) : (modM s f).out = s.out := rfl

/-! Reading back what was written -/

theorem getT_setT (s : State) (t u : Nat) (x : Tile) : getT (setT s t x) u = if t = u then x else getT s u :=
  mget_mset s.tiles Tile.reset t u x

@[simp] theorem getT_setT_same (s : State) (t : Nat) (x : Tile) : getT (setT s t x) t = x := by
  simp [getT_setT]

theorem getT_setT_other (s : State) (t u : Nat) (x : Tile) (h : t ≠ u) : getT (setT s t x) u = getT s u := by
  simp [getT_setT, h]

@[simp] theorem getT_modT_same (s : State) (t : Nat) (f : Tile → Tile) : getT (modT s t f) t = f (getT s t) := by
  simp [modT]

@[simp] theorem getT_setC_same (s : State) (t : Nat) (c : CtxId) (x : Ctx) :
    getT (setC s t c x) t = tileSetC (getT s t) c x := by
  simp [setC]

theorem getT_setC_other (s : State) (t u : Nat) (c : CtxId) (x : Ctx) (h : t ≠ u) : getT (setC s t c x) u = getT s u := by
  simp [setC, getT_setT_other, h]

@[simp] theorem getC_setC_same (s : State) (t : Nat) (c : CtxId) (x : Ctx) : getC (setC s t c x) t c = x := by
  simp [getC, tileSetC]

theorem getC_setC_otherCtx (s : State) (t : Nat) (c d : CtxId) (x : Ctx) (h : c ≠ d) :
    getC (setC s t c x) t d = getC s t d := by
  have h' : c.val ≠ d.val := fun e => h (Fin.ext e)
  simp [getC, tileSetC, Vector.getElem_set_ne, h']

theorem getC_setC_otherTile (s : State) (t u : Nat) (c d : CtxId) (x : Ctx) (h : t ≠ u) :
    getC (setC s t c x) u d = getC s u d := by
  simp [getC, getT_setC_other, h]

@[simp] theorem getC_modC_same (s : State) (t : Nat) (c : CtxId) (f : Ctx → Ctx) :
    getC (modC s t c f) t c = f (getC s t c) := by
  simp [modC]

@[simp] theorem getD_setD_same (s : State) (d : Nat) (x : CDieSt) : getD (setD s d x) d = x := by
  simp [getD, setD]

theorem getD_setD (s : State) (d e : Nat) (x : CDieSt) : getD (setD s d x) e = if d = e then x else getD s e :=
  mget_mset s.cdies CDieSt.reset d e x

theorem getW_setW (s : State) (d e : Nat) (x : WakeSt) : getW (setW s d x) e = if d = e then x else getW s e :=
  mget_mset s.wakes WakeSt.reset d e x

theorem getE_setE (s : State) (l k : Nat) (x : Engine) : getE (setE s l x) k = if l = k then x else getE s k :=
  mget_mset s.link.engines Engine.reset l k x

theorem getP_setP (s : State) (p q : Nat) (x : Port) : getP (setP s p x) q = if p = q then x else getP s q :=
  mget_mset s.link.ports Port.reset p q x

@[simp] theorem setT_setT (s : State) (t : Nat) (x y : Tile) : setT (setT s t x) t y = setT s t y := by
  simp [setT]

@[simp] theorem tileSetC_tileSetC (T : Tile) (c : CtxId) (x y : Ctx) : tileSetC (tileSetC T c x) c y = tileSetC T c y := by
  simp [tileSetC]

@[simp] theorem tileSetC_ctx (T : Tile) (c : CtxId) (x : Ctx) : (tileSetC T c x).ctx[c] = x := by
  simp [tileSetC]

@[simp] theorem tileSetC_self (T : Tile) (c : CtxId) : tileSetC T c T.ctx[c] = T := by
  simp [tileSetC]

@[simp] theorem setC_setC (s : State) (t : Nat) (c : CtxId) (x y : Ctx) : setC (setC s t c x) t c y = setC s t c y := by
  simp [setC]

/-- x0 reads zero and a write to it is discarded (R69). -/
@[simp] theorem xget_zero (C : Ctx) : xget C 0 = 0 := rfl
@[simp] theorem xset_zero (C : Ctx) (v : Word) : xset C 0 v = C := rfl

theorem xget_xset (C : Ctx) (r q : Reg) (v : Word) :
    xget (xset C r v) q = if q = 0 then 0 else if r = q then v else xget C q := by
  unfold xget xset
  by_cases hq : q = 0
  · simp [hq]
  · by_cases hr : r = 0
    · have : (0 : Reg) ≠ q := fun e => hq e.symm
      simp [hq, hr, this]
    · by_cases h : r = q
      · subst h; simp [hq]
      · have h' : r.val ≠ q.val := fun e => h (Fin.ext e)
        simp [hq, hr, h, Vector.getElem_set_ne, h']

end Machine
end Sys2Proof
end

