-- ==== Sys2Proof/Laws/Issue.lean ====
section
/-!
SUPPORT. What issuing and completing an instruction can do: one lemma per shared operation.
-/

namespace Sys2Proof
namespace Machine

/-- A ready context performs the body of its instruction: it waits, faults, livelocks or completes. -/
theorem issueWith_ready {s : State} {t : Nat} {c : CtxId} {regs : List Reg} {body : State → Ctx → IssueRes}
    {fin : State → Option Nat → State} {onFault : State → FaultInfo → State} (h : ready s t c regs = true) :
    issueWith s t c regs body fin onFault =
      match body (settle s t c) (now s t c) with
      | .wait s' => unsettle s' t c (getC s t c)
      | .fault f => onFault (settle s t c) f
      | .ok s' target =>
        if livelock (now s t c) target then raiseFault (settle s t c) t c (plainFault 0x1A (toW (target.getD 0 % 2 ^ 48)))
        else fin s' target := by
  simp only [ready, Bool.and_eq_true, Option.isNone_iff_eq_none, Bool.not_eq_true'] at h
  obtain ⟨⟨h1, h2⟩, h3⟩ := h
  simp only [issueWith, h1, h2, h3, now]
  rfl

/-- Behind a fence that holds nothing back an instruction that accesses memory performs its body after the fence (R171). -/
theorem issueMem_ready {s : State} {t : Nat} {c : CtxId} {regs : List Reg} {body : State → Ctx → IssueRes}
    (h : readyMem s t c regs = true) :
    issueMem s t c regs body =
      match body (atMem s t c) (getC (atMem s t c) t c) with
      | .wait s' => unsettle s' t c (getC s t c)
      | .fault f => raiseFault (settle s t c) t c f
      | .ok s' target =>
        if livelock (now s t c) target then raiseFault (settle s t c) t c (plainFault 0x1A (toW (target.getD 0 % 2 ^ 48)))
        else finish s' t c target := by
  simp only [readyMem, Bool.and_eq_true] at h
  have e : afterFence t c body (settle s t c) (now s t c) = body (atMem s t c) (getC (atMem s t c) t c) := by
    have hf := h.2
    unfold fenceClear at hf
    unfold afterFence atMem endFence
    simp only [now] at hf ⊢
    cases hw : (getC (settle s t c) t c).fence with
    | none => rfl
    | some f => simp only [hw, Option.all_some] at hf; simp [hf]
  unfold issueMem issue
  rw [issueWith_ready h.1, e]

@[simp] theorem livelock_none (C : Ctx) : livelock C none = false := rfl

/-- Completing a context that an update has just set completes the update. -/
theorem finish_eq (s : State) (t : Nat) (c : CtxId) (target : Option Nat) :
    finish s t c target = setC s t c (getC (finish s t c target) t c) := by
  simp [finish, modC]

/-- Setting a context to what it holds changes no completion. -/
@[simp] theorem finish_setC_self (s : State) (t : Nat) (c : CtxId) (target : Option Nat) :
    finish (setC s t c (getC s t c)) t c target = finish s t c target := by
  simp [finish, modC]

@[simp] theorem finish_setC_now (s : State) (t : Nat) (c : CtxId) (target : Option Nat) :
    finish (setC (settle s t c) t c (now s t c)) t c target = finish (settle s t c) t c target :=
  finish_setC_self (settle s t c) t c target

/-- Completion leaves every other context of the tile. -/
theorem getC_finish_other (s : State) (t : Nat) (c d : CtxId) (target : Option Nat) (h : c ≠ d) :
    getC (finish s t c target) t d = getC s t d := by
  rw [finish_eq, getC_setC_otherCtx _ _ _ _ _ h]

/-- Completion leaves every other tile. -/
theorem getT_finish_other (s : State) (t u : Nat) (c : CtxId) (target : Option Nat) (h : t ≠ u) :
    getT (finish s t c target) u = getT s u := by
  rw [finish_eq, getT_setC_other _ _ _ _ _ h]

/-- Counting an earlier lane-engine instruction changes one context alone. -/
theorem settle_cases (s : State) (t : Nat) (c : CtxId) :
    settle s t c = s ∨ settle s t c = modC s t c (fun C => { countDown C with lastLane := none }) := by
  unfold settle
  split
  · exact .inr rfl
  · exact .inl rfl

@[simp] theorem settle_mem (s : State) (t : Nat) (c : CtxId) : (settle s t c).mem = s.mem := by
  rcases settle_cases s t c with h | h <;> rw [h] <;> rfl

@[simp] theorem settle_qf (s : State) (t : Nat) (c : CtxId) : (settle s t c).qf = s.qf := by
  rcases settle_cases s t c with h | h <;> rw [h] <;> rfl

theorem getT_settle_other (s : State) (t u : Nat) (c : CtxId) (h : t ≠ u) : getT (settle s t c) u = getT s u := by
  rcases settle_cases s t c with h' | h' <;> rw [h']
  exact getT_setC_other s t u c _ h

/-- The tile of a settled context differs in that context alone. -/
theorem getT_settle (s : State) (t : Nat) (c : CtxId) :
    getT (settle s t c) t = tileSetC (getT s t) c (now s t c) := by
  rcases settle_cases s t c with h | h
  · rw [h, now, h]; exact (tileSetC_self _ _).symm
  · simp [now, h, modC]

/-- The sign extension of R102 is that of bit vectors. -/
theorem sextW_eq (w : Nat) (b : BitVec w) : sextW w b.toNat = b.signExtend 64 := by
  have h1 : sInt w b.toNat = b.toInt := by
    unfold sInt
    rw [Nat.mod_eq_of_lt b.isLt, BitVec.toInt_eq_toNat_cond]
    split <;> split <;> omega
  apply BitVec.eq_of_toNat_eq
  unfold sextW toW wrapI
  rw [h1, BitVec.toNat_ofNat, BitVec.signExtend, BitVec.toNat_ofInt]
  have h2 : 0 ≤ b.toInt % ((2 ^ 64 : Nat) : Int) := Int.emod_nonneg _ (by decide)
  have h3 : b.toInt % ((2 ^ 64 : Nat) : Int) < ((2 ^ 64 : Nat) : Int) := Int.emod_lt_of_pos _ (by decide)
  exact Nat.mod_eq_of_lt (by omega)

end Machine
end Sys2Proof
end

