-- ==== Sys2Proof/Laws/PerInstr.lean ====
section
/-!
SUPPORT. Statements made of every command, one lemma per constructor. WordFits: the word of an instruction command fits
32 bits (R100, R147), and a command that is no instruction has none.
-/

namespace Sys2Proof
namespace Laws

set_option Elab.async false
open Machine

theorem idxOf_lt {α : Type} [DecidableEq α] (l : List α) (a : α) (hl : 0 < l.length) : idxOf l a < l.length := by
  unfold idxOf
  cases h : l.findIdx? (fun x => decide (x = a)) with
  | none => simpa using hl
  | some k =>
    have := List.findIdx?_eq_some_iff_getElem.mp h
    simp only [Option.getD_some]; obtain ⟨h1, _⟩ := this; exact h1
theorem b2n_le (b : Bool) : b2n b ≤ 1 := by cases b <;> decide
theorem segS_lt (seg : Option SegId) : segS seg < 16 := by
  cases seg with
  | none => decide
  | some n => have := n.isLt; simp only [segS]; omega
theorem vsrcBits_lt (b : VSrc) : (vsrcBits b).1 ≤ 64 ∧ (vsrcBits b).2 < 64 := by
  cases b with
  | vv r => exact ⟨Nat.zero_le 64, r.isLt⟩
  | vx r => exact ⟨Nat.le_refl 64, Nat.lt_of_lt_of_le r.isLt (by decide)⟩
theorem vcmpFn_le (op : VCmpOp) : vcmpFn op ≤ 0x2A := by cases op <;> decide

theorem fmtR_lt {op rd a b fn : Nat} (h1 : op < 64) (h2 : rd < 32) (h3 : a < 32) (h4 : b < 32) (h5 : fn < 2048) : fmtR op rd a b fn < 2 ^ 32 := by
  unfold fmtR; omega
theorem fmtI_lt {op rd a imm : Nat} (h1 : op < 64) (h2 : rd < 32) (h3 : a < 32) (h4 : imm < 65536) : fmtI op rd a imm < 2 ^ 32 := by
  unfold fmtI; omega
theorem fmtM_lt {op rd a : Nat} {seg : Option SegId} {imm : Nat} (h1 : op < 64) (h2 : rd < 32) (h3 : a < 32) (h4 : imm < 4096) :
    fmtM op rd a seg imm < 2 ^ 32 := by
  have := segS_lt seg; unfold fmtM; omega
theorem fmtA_lt {op rd a b : Nat} {seg : Option SegId} {sz fn : Nat} (h1 : op < 64) (h2 : rd < 32) (h3 : a < 32) (h4 : b < 32)
    (h5 : sz < 4) (h6 : fn < 32) : fmtA op rd a b seg sz fn < 2 ^ 32 := by
  have := segS_lt seg; unfold fmtA; omega
theorem fmtV_lt {op vd a b m fn : Nat} (h1 : op < 64) (h2 : vd < 64) (h3 : a < 64) (h4 : b < 64) (h5 : m ≤ 1) (h6 : fn < 128) :
    fmtV op vd a b m fn < 2 ^ 32 := by
  unfold fmtV; omega
theorem fmtVC_lt {rd a vs fn sew alt mz : Nat} (h1 : rd < 32) (h2 : a < 32) (h3 : vs < 64) (h4 : fn < 16) (h5 : sew < 4) (h6 : alt ≤ 1)
    (h7 : mz ≤ 1) : fmtVC rd a vs fn sew alt mz < 2 ^ 32 := by
  unfold fmtVC; omega
theorem fmtVM_lt {vd a : Nat} {seg : Option SegId} {m st : Nat} {mode : VMode} (h1 : vd < 64) (h2 : a < 32) (h3 : m ≤ 1) (h4 : st ≤ 1) :
    fmtVM vd a seg m st mode < 2 ^ 32 := by
  have := segS_lt seg
  cases mode with
  | unit => unfold fmtVM; simp only; omega
  | strided r => have := r.isLt; unfold fmtVM; simp only; omega
  | indexed v => have := v.isLt; unfold fmtVM; simp only; omega

/-- The word of a command, where it has one, fits 32 bits. -/
def WordFits.Statement (i : Instr) : Prop := ∀ w, encodeWord i = some w → w < 2 ^ 32

theorem noWord {i : Instr} (h : encodeWord i = none) : WordFits.Statement i := fun _ e => nomatch (h.symm.trans e)
theorem hasWord {i : Instr} {n : Nat} (h : encodeWord i = some n) (hn : n < 2 ^ 32) : WordFits.Statement i :=
  fun _ e => Option.some.inj (h.symm.trans e) ▸ hn

theorem WordFits.addSubLogic (t_ : TileId) (c_ : CtxId) (op_ : AluOp) (rd_ rs1_ rs2_ : Reg) : WordFits.Statement (.addSubLogic t_ c_ op_ rd_ rs1_ rs2_) := by
  refine hasWord rfl ?_
  have := idxOf_lt aluOps op_ (by decide)
  have := rd_.isLt
  have := rs1_.isLt
  have := rs2_.isLt
  simp only [aluOps, List.length_cons, List.length_nil] at *
  apply fmtR_lt <;> omega
theorem WordFits.shift (t_ : TileId) (c_ : CtxId) (op_ : ShiftOp) (rd_ rs1_ rs2_ : Reg) : WordFits.Statement (.shift t_ c_ op_ rd_ rs1_ rs2_) := by
  refine hasWord rfl ?_
  have := idxOf_lt shiftOps op_ (by decide)
  have := rd_.isLt
  have := rs1_.isLt
  have := rs2_.isLt
  simp only [shiftOps, List.length_cons, List.length_nil] at *
  apply fmtR_lt <;> omega
theorem WordFits.setLessThan (t_ : TileId) (c_ : CtxId) (op_ : SltOp) (rd_ rs1_ rs2_ : Reg) : WordFits.Statement (.setLessThan t_ c_ op_ rd_ rs1_ rs2_) := by
  refine hasWord rfl ?_
  have := idxOf_lt sltOps op_ (by decide)
  have := rd_.isLt
  have := rs1_.isLt
  have := rs2_.isLt
  simp only [sltOps, List.length_cons, List.length_nil] at *
  apply fmtR_lt <;> omega
theorem WordFits.minMax (t_ : TileId) (c_ : CtxId) (op_ : MinMaxOp) (rd_ rs1_ rs2_ : Reg) : WordFits.Statement (.minMax t_ c_ op_ rd_ rs1_ rs2_) := by
  refine hasWord rfl ?_
  have := idxOf_lt minMaxOps op_ (by decide)
  have := rd_.isLt
  have := rs1_.isLt
  have := rs2_.isLt
  simp only [minMaxOps, List.length_cons, List.length_nil] at *
  apply fmtR_lt <;> omega
theorem WordFits.addwSubw (t_ : TileId) (c_ : CtxId) (op_ : WOp) (rd_ rs1_ rs2_ : Reg) : WordFits.Statement (.addwSubw t_ c_ op_ rd_ rs1_ rs2_) := by
  refine hasWord rfl ?_
  have := idxOf_lt wOps op_ (by decide)
  have := rd_.isLt
  have := rs1_.isLt
  have := rs2_.isLt
  simp only [wOps, List.length_cons, List.length_nil] at *
  apply fmtR_lt <;> omega
theorem WordFits.bitCount (t_ : TileId) (c_ : CtxId) (op_ : CountOp) (rd_ rs1_ : Reg) : WordFits.Statement (.bitCount t_ c_ op_ rd_ rs1_) := by
  refine hasWord rfl ?_
  have := idxOf_lt countOps op_ (by decide)
  have := rd_.isLt
  have := rs1_.isLt
  simp only [countOps, List.length_cons, List.length_nil] at *
  apply fmtR_lt <;> omega
theorem WordFits.mul (t_ : TileId) (c_ : CtxId) (op_ : MulOp) (rd_ rs1_ rs2_ : Reg) : WordFits.Statement (.mul t_ c_ op_ rd_ rs1_ rs2_) := by
  refine hasWord rfl ?_
  have := idxOf_lt mulOps op_ (by decide)
  have := rd_.isLt
  have := rs1_.isLt
  have := rs2_.isLt
  simp only [mulOps, List.length_cons, List.length_nil] at *
  apply fmtR_lt <;> omega
theorem WordFits.divRem (t_ : TileId) (c_ : CtxId) (op_ : DivOp) (rd_ rs1_ rs2_ : Reg) : WordFits.Statement (.divRem t_ c_ op_ rd_ rs1_ rs2_) := by
  refine hasWord rfl ?_
  have := idxOf_lt divOps op_ (by decide)
  have := rd_.isLt
  have := rs1_.isLt
  have := rs2_.isLt
  simp only [divOps, List.length_cons, List.length_nil] at *
  apply fmtR_lt <;> omega
theorem WordFits.addi (t_ : TileId) (c_ : CtxId) (op_ : AddiOp) (rd_ rs1_ : Reg) (imm_ : BitVec 16) : WordFits.Statement (.addi t_ c_ op_ rd_ rs1_ imm_) := by
  refine hasWord rfl ?_
  have := rd_.isLt
  have := rs1_.isLt
  have := imm_.isLt
  apply fmtI_lt <;> first | omega | (split <;> omega)
theorem WordFits.logicImm (t_ : TileId) (c_ : CtxId) (op_ : LogicOp) (rd_ rs1_ : Reg) (imm_ : BitVec 16) : WordFits.Statement (.logicImm t_ c_ op_ rd_ rs1_ imm_) := by
  refine hasWord rfl ?_
  have := idxOf_lt logicOps op_ (by decide)
  have := rd_.isLt
  have := rs1_.isLt
  have := imm_.isLt
  simp only [logicOps, List.length_cons, List.length_nil] at *
  apply fmtI_lt <;> omega
theorem WordFits.shiftImm (t_ : TileId) (c_ : CtxId) (op_ : ShiftOp) (rd_ rs1_ : Reg) (amt_ : BitVec 6) : WordFits.Statement (.shiftImm t_ c_ op_ rd_ rs1_ amt_) := by
  refine hasWord rfl ?_
  have := idxOf_lt shiftOps op_ (by decide)
  have := rd_.isLt
  have := rs1_.isLt
  have := amt_.isLt
  simp only [shiftOps, List.length_cons, List.length_nil] at *
  apply fmtI_lt <;> omega
theorem WordFits.lui (t_ : TileId) (c_ : CtxId) (rd_ : Reg) (imm_ : BitVec 21) : WordFits.Statement (.lui t_ c_ rd_ imm_) := by
  refine hasWord rfl ?_
  have := rd_.isLt
  have := imm_.isLt
  omega
theorem WordFits.lapc (t_ : TileId) (c_ : CtxId) (rd_ : Reg) (imm_ : BitVec 21) : WordFits.Statement (.lapc t_ c_ rd_ imm_) := by
  refine hasWord rfl ?_
  have := rd_.isLt
  have := imm_.isLt
  omega
theorem WordFits.load (t_ : TileId) (c_ : CtxId) (op_ : LoadOp) (rd_ rs1_ : Reg) (seg_ : Option SegId) (imm_ : BitVec 12) : WordFits.Statement (.load t_ c_ op_ rd_ rs1_ seg_ imm_) := by
  refine hasWord rfl ?_
  have := idxOf_lt loadOps op_ (by decide)
  have := rd_.isLt
  have := rs1_.isLt
  have := imm_.isLt
  simp only [loadOps, List.length_cons, List.length_nil] at *
  apply fmtM_lt <;> omega
theorem WordFits.store (t_ : TileId) (c_ : CtxId) (sz_ : Size) (rs_ rs1_ : Reg) (seg_ : Option SegId) (imm_ : BitVec 12) : WordFits.Statement (.store t_ c_ sz_ rs_ rs1_ seg_ imm_) := by
  refine hasWord rfl ?_
  have := idxOf_lt sizes sz_ (by decide)
  have := rs_.isLt
  have := rs1_.isLt
  have := imm_.isLt
  simp only [sizes, List.length_cons, List.length_nil] at *
  apply fmtM_lt <;> omega
theorem WordFits.amo (t_ : TileId) (c_ : CtxId) (op_ : AmoOp) (dw_ : Bool) (rd_ rs1_ rs2_ : Reg) (seg_ : Option SegId) : WordFits.Statement (.amo t_ c_ op_ dw_ rd_ rs1_ rs2_ seg_) := by
  refine hasWord rfl ?_
  have := idxOf_lt amoOps op_ (by decide)
  have := b2n_le dw_
  have := rd_.isLt
  have := rs1_.isLt
  have := rs2_.isLt
  simp only [amoOps, List.length_cons, List.length_nil] at *
  apply fmtA_lt <;> omega
theorem WordFits.amocas (t_ : TileId) (c_ : CtxId) (dw_ : Bool) (rd_ rs1_ rs2_ : Reg) (seg_ : Option SegId) : WordFits.Statement (.amocas t_ c_ dw_ rd_ rs1_ rs2_ seg_) := by
  refine hasWord rfl ?_
  have := b2n_le dw_
  have := rd_.isLt
  have := rs1_.isLt
  have := rs2_.isLt
  apply fmtA_lt <;> omega
theorem WordFits.dzl (t_ : TileId) (c_ : CtxId) (rs1_ : Reg) (seg_ : Option SegId) : WordFits.Statement (.dzl t_ c_ rs1_ seg_) := by
  refine hasWord rfl ?_
  have := rs1_.isLt
  apply fmtA_lt <;> omega
theorem WordFits.rclean (t_ : TileId) (c_ : CtxId) (rs1_ rs2_ : Reg) (seg_ : Option SegId) : WordFits.Statement (.rclean t_ c_ rs1_ rs2_ seg_) := by
  refine hasWord rfl ?_
  have := rs1_.isLt
  have := rs2_.isLt
  apply fmtA_lt <;> omega
theorem WordFits.rinval (t_ : TileId) (c_ : CtxId) (rs1_ rs2_ : Reg) (seg_ : Option SegId) : WordFits.Statement (.rinval t_ c_ rs1_ rs2_ seg_) := by
  refine hasWord rfl ?_
  have := rs1_.isLt
  have := rs2_.isLt
  apply fmtA_lt <;> omega
theorem WordFits.rcinval (t_ : TileId) (c_ : CtxId) (rs1_ rs2_ : Reg) (seg_ : Option SegId) : WordFits.Statement (.rcinval t_ c_ rs1_ rs2_ seg_) := by
  refine hasWord rfl ?_
  have := rs1_.isLt
  have := rs2_.isLt
  apply fmtA_lt <;> omega
theorem WordFits.macm (t_ : TileId) (c_ : CtxId) (sz_ : Size) (uns_ sub_ : Bool) (rs1_ rs2_ : Reg) (sx_ sy_ : BitVec 6) : WordFits.Statement (.macm t_ c_ sz_ uns_ sub_ rs1_ rs2_ sx_ sy_) := by
  refine hasWord rfl ?_
  have := idxOf_lt sizes sz_ (by decide)
  have := b2n_le uns_
  have := b2n_le sub_
  have := rs1_.isLt
  have := rs2_.isLt
  have := sx_.isLt
  have := sy_.isLt
  simp only [sizes, List.length_cons, List.length_nil] at *
  omega
theorem WordFits.branch (t_ : TileId) (c_ : CtxId) (op_ : BranchOp) (rs1_ rs2_ : Reg) (off_ : BitVec 16) : WordFits.Statement (.branch t_ c_ op_ rs1_ rs2_ off_) := by
  refine hasWord rfl ?_
  have := idxOf_lt branchOps op_ (by decide)
  have := rs1_.isLt
  have := rs2_.isLt
  have := off_.isLt
  simp only [branchOps, List.length_cons, List.length_nil] at *
  apply fmtI_lt <;> omega
theorem WordFits.jump (t_ : TileId) (c_ : CtxId) (off_ : BitVec 26) : WordFits.Statement (.jump t_ c_ off_) := by
  refine hasWord rfl ?_
  have := off_.isLt
  omega
theorem WordFits.call (t_ : TileId) (c_ : CtxId) (off_ : BitVec 26) : WordFits.Statement (.call t_ c_ off_) := by
  refine hasWord rfl ?_
  have := off_.isLt
  omega
theorem WordFits.jr (t_ : TileId) (c_ : CtxId) (rd_ rs1_ : Reg) : WordFits.Statement (.jr t_ c_ rd_ rs1_) := by
  refine hasWord rfl ?_
  have := rd_.isLt
  have := rs1_.isLt
  apply fmtR_lt <;> omega
theorem WordFits.callr (t_ : TileId) (c_ : CtxId) (rd_ rs1_ : Reg) : WordFits.Statement (.callr t_ c_ rd_ rs1_) := by
  refine hasWord rfl ?_
  have := rd_.isLt
  have := rs1_.isLt
  apply fmtR_lt <;> omega
theorem WordFits.ret (t_ : TileId) (c_ : CtxId) : WordFits.Statement (.ret t_ c_) := by
  refine hasWord rfl ?_
  apply fmtR_lt <;> omega
theorem WordFits.loop (t_ : TileId) (c_ : CtxId) (l_ : Fin 2) (rs_ : Reg) (len_ : BitVec 12) : WordFits.Statement (.loop t_ c_ l_ rs_ len_) := by
  refine hasWord rfl ?_
  have := l_.isLt
  have := rs_.isLt
  have := len_.isLt
  omega
theorem WordFits.loopi (t_ : TileId) (c_ : CtxId) (l_ : Fin 2) (cnt_ : BitVec 11) (len_ : BitVec 12) : WordFits.Statement (.loopi t_ c_ l_ cnt_ len_) := by
  refine hasWord rfl ?_
  have := l_.isLt
  have := cnt_.isLt
  have := len_.isLt
  omega
theorem WordFits.lpclr (t_ : TileId) (c_ : CtxId) (l_ : Fin 2) : WordFits.Statement (.lpclr t_ c_ l_) := by
  refine hasWord rfl ?_
  have := l_.isLt
  omega
theorem WordFits.rspush (t_ : TileId) (c_ : CtxId) (rs1_ : Reg) : WordFits.Statement (.rspush t_ c_ rs1_) := by
  refine hasWord rfl ?_
  have := rs1_.isLt
  apply fmtR_lt <;> omega
theorem WordFits.rspop (t_ : TileId) (c_ : CtxId) (rd_ : Reg) : WordFits.Statement (.rspop t_ c_ rd_) := by
  refine hasWord rfl ?_
  have := rd_.isLt
  apply fmtR_lt <;> omega
theorem WordFits.rsclr (t_ : TileId) (c_ : CtxId) : WordFits.Statement (.rsclr t_ c_) := by
  refine hasWord rfl ?_
  apply fmtR_lt <;> omega
theorem WordFits.segset (t_ : TileId) (c_ : CtxId) (n_ : SegId) (rs1_ rs2_ : Reg) : WordFits.Statement (.segset t_ c_ n_ rs1_ rs2_) := by
  refine hasWord rfl ?_
  have := n_.isLt
  have := rs1_.isLt
  have := rs2_.isLt
  apply fmtR_lt <;> omega
theorem WordFits.segnarrow (t_ : TileId) (c_ : CtxId) (n_ : SegId) (mask_ : BitVec 3) (rs1_ rs2_ : Reg) : WordFits.Statement (.segnarrow t_ c_ n_ mask_ rs1_ rs2_) := by
  refine hasWord rfl ?_
  have := n_.isLt
  have := mask_.isLt
  have := rs1_.isLt
  have := rs2_.isLt
  apply fmtR_lt <;> omega
theorem WordFits.segrda (t_ : TileId) (c_ : CtxId) (n_ : SegId) (rd_ : Reg) : WordFits.Statement (.segrda t_ c_ n_ rd_) := by
  refine hasWord rfl ?_
  have := n_.isLt
  have := rd_.isLt
  apply fmtR_lt <;> omega
theorem WordFits.segrdl (t_ : TileId) (c_ : CtxId) (n_ : SegId) (rd_ : Reg) : WordFits.Statement (.segrdl t_ c_ n_ rd_) := by
  refine hasWord rfl ?_
  have := n_.isLt
  have := rd_.isLt
  apply fmtR_lt <;> omega
theorem WordFits.csrr (t_ : TileId) (c_ : CtxId) (rd_ : Reg) (csr_ : BitVec 12) : WordFits.Statement (.csrr t_ c_ rd_ csr_) := by
  refine hasWord rfl ?_
  have := rd_.isLt
  have := csr_.isLt
  apply fmtI_lt <;> omega
theorem WordFits.csrw (t_ : TileId) (c_ : CtxId) (rd_ rs1_ : Reg) (csr_ : BitVec 12) : WordFits.Statement (.csrw t_ c_ rd_ rs1_ csr_) := by
  refine hasWord rfl ?_
  have := rd_.isLt
  have := rs1_.isLt
  have := csr_.isLt
  apply fmtI_lt <;> omega
theorem WordFits.csrs (t_ : TileId) (c_ : CtxId) (rd_ rs1_ : Reg) (csr_ : BitVec 12) : WordFits.Statement (.csrs t_ c_ rd_ rs1_ csr_) := by
  refine hasWord rfl ?_
  have := rd_.isLt
  have := rs1_.isLt
  have := csr_.isLt
  apply fmtI_lt <;> omega
theorem WordFits.csrc (t_ : TileId) (c_ : CtxId) (rd_ rs1_ : Reg) (csr_ : BitVec 12) : WordFits.Statement (.csrc t_ c_ rd_ rs1_ csr_) := by
  refine hasWord rfl ?_
  have := rd_.isLt
  have := rs1_.isLt
  have := csr_.isLt
  apply fmtI_lt <;> omega
theorem WordFits.tgliveWrite (t_ : TileId) (c_ : CtxId) (op_ : CsrOp) (rd_ rs1_ : Reg) (h_ : Bool) : WordFits.Statement (.tgliveWrite t_ c_ op_ rd_ rs1_ h_) := by
  refine hasWord rfl ?_
  have := idxOf_lt csrOps op_ (by decide)
  have := rd_.isLt
  have := rs1_.isLt
  have := b2n_le h_
  simp only [csrOps, List.length_cons, List.length_nil] at *
  apply fmtI_lt <;> omega
theorem WordFits.isync (t_ : TileId) (c_ : CtxId) : WordFits.Statement (.isync t_ c_) := by
  refine hasWord rfl ?_
  apply fmtR_lt <;> omega
theorem WordFits.fenceG (t_ : TileId) (c_ : CtxId) : WordFits.Statement (.fenceG t_ c_) := by
  refine hasWord rfl ?_
  apply fmtR_lt <;> omega
theorem WordFits.fenceB (t_ : TileId) (c_ : CtxId) : WordFits.Statement (.fenceB t_ c_) := by
  refine hasWord rfl ?_
  apply fmtR_lt <;> omega
theorem WordFits.fenceD (t_ : TileId) (c_ : CtxId) (rs1_ : Reg) : WordFits.Statement (.fenceD t_ c_ rs1_) := by
  refine hasWord rfl ?_
  have := rs1_.isLt
  apply fmtR_lt <;> omega
theorem WordFits.fenceS (t_ : TileId) (c_ : CtxId) (rs1_ : Reg) : WordFits.Statement (.fenceS t_ c_ rs1_) := by
  refine hasWord rfl ?_
  have := rs1_.isLt
  apply fmtR_lt <;> omega
theorem WordFits.yieldw (t_ : TileId) (c_ : CtxId) : WordFits.Statement (.yieldw t_ c_) := by
  refine hasWord rfl ?_
  apply fmtR_lt <;> omega
theorem WordFits.sret (t_ : TileId) (c_ : CtxId) : WordFits.Statement (.sret t_ c_) := by
  refine hasWord rfl ?_
  apply fmtR_lt <;> omega
theorem WordFits.eret (t_ : TileId) (c_ : CtxId) : WordFits.Statement (.eret t_ c_) := by
  refine hasWord rfl ?_
  apply fmtR_lt <;> omega
theorem WordFits.halt (t_ : TileId) (c_ : CtxId) : WordFits.Statement (.halt t_ c_) := by
  refine hasWord rfl ?_
  apply fmtR_lt <;> omega
theorem WordFits.qwait (t_ : TileId) (c_ : CtxId) (rd_ rs1_ rs2_ : Reg) : WordFits.Statement (.qwait t_ c_ rd_ rs1_ rs2_) := by
  refine hasWord rfl ?_
  have := rd_.isLt
  have := rs1_.isLt
  have := rs2_.isLt
  apply fmtR_lt <;> omega
theorem WordFits.qwaitTimeout (t_ : TileId) (c_ : CtxId) : WordFits.Statement (.qwaitTimeout t_ c_) := noWord rfl
theorem WordFits.mxq (t_ : TileId) (c_ : CtxId) (rd_ rs1_ : Reg) : WordFits.Statement (.mxq t_ c_ rd_ rs1_) := by
  refine hasWord rfl ?_
  have := rd_.isLt
  have := rs1_.isLt
  apply fmtR_lt <;> omega
theorem WordFits.mxwait (t_ : TileId) (c_ : CtxId) (rs1_ : Reg) : WordFits.Statement (.mxwait t_ c_ rs1_) := by
  refine hasWord rfl ?_
  have := rs1_.isLt
  apply fmtR_lt <;> omega
theorem WordFits.brk (t_ : TileId) (c_ : CtxId) : WordFits.Statement (.brk t_ c_) := by
  refine hasWord rfl ?_
  apply fmtR_lt <;> omega
theorem WordFits.scall (t_ : TileId) (c_ : CtxId) (n_ : SegId) : WordFits.Statement (.scall t_ c_ n_) := by
  refine hasWord rfl ?_
  have := n_.isLt
  apply fmtR_lt <;> omega
theorem WordFits.tgon (t_ : TileId) (c_ : CtxId) (rs1_ : Reg) : WordFits.Statement (.tgon t_ c_ rs1_) := by
  refine hasWord rfl ?_
  have := rs1_.isLt
  apply fmtR_lt <;> omega
theorem WordFits.tgoff (t_ : TileId) (c_ : CtxId) : WordFits.Statement (.tgoff t_ c_) := by
  refine hasWord rfl ?_
  apply fmtR_lt <;> omega
theorem WordFits.tbr (t_ : TileId) (c_ : CtxId) (vs_ : VReg) (rs1_ : Reg) : WordFits.Statement (.tbr t_ c_ vs_ rs1_) := by
  refine hasWord rfl ?_
  have := vs_.isLt
  have := rs1_.isLt
  apply fmtVC_lt <;> omega
theorem WordFits.tbrz (t_ : TileId) (c_ : CtxId) (vs_ : VReg) (rs1_ : Reg) : WordFits.Statement (.tbrz t_ c_ vs_ rs1_) := by
  refine hasWord rfl ?_
  have := vs_.isLt
  have := rs1_.isLt
  apply fmtVC_lt <;> omega
theorem WordFits.loadResponse (t_ : TileId) (c_ : CtxId) (k_ : Nat) : WordFits.Statement (.loadResponse t_ c_ k_) := noWord rfl
theorem WordFits.responseFaultEntry (t_ : TileId) (c_ : CtxId) : WordFits.Statement (.responseFaultEntry t_ c_) := noWord rfl
theorem WordFits.interruptEntry (t_ : TileId) (c_ : CtxId) : WordFits.Statement (.interruptEntry t_ c_) := noWord rfl
theorem WordFits.ctxTimerExpiry (t_ : TileId) (c_ : CtxId) : WordFits.Statement (.ctxTimerExpiry t_ c_) := noWord rfl
theorem WordFits.storeCoherenceAck (t_ : TileId) (k_ : Nat) : WordFits.Statement (.storeCoherenceAck t_ k_) := noWord rfl
theorem WordFits.vshape (t_ : TileId) (c_ : CtxId) (rd_ rs1_ : Reg) (sew_ : Fin 4) (alt_ mz_ : Bool) : WordFits.Statement (.vshape t_ c_ rd_ rs1_ sew_ alt_ mz_) := by
  refine hasWord rfl ?_
  have := rd_.isLt
  have := rs1_.isLt
  have := sew_.isLt
  have := b2n_le alt_
  have := b2n_le mz_
  apply fmtVC_lt <;> omega
theorem WordFits.vmvXS (t_ : TileId) (c_ : CtxId) (rd_ : Reg) (vs_ : VReg) : WordFits.Statement (.vmvXS t_ c_ rd_ vs_) := by
  refine hasWord rfl ?_
  have := rd_.isLt
  have := vs_.isLt
  apply fmtVC_lt <;> omega
theorem WordFits.vmvSX (t_ : TileId) (c_ : CtxId) (vs_ : VReg) (rs1_ : Reg) : WordFits.Statement (.vmvSX t_ c_ vs_ rs1_) := by
  refine hasWord rfl ?_
  have := vs_.isLt
  have := rs1_.isLt
  apply fmtVC_lt <;> omega
theorem WordFits.vmvVX (t_ : TileId) (c_ : CtxId) (vs_ : VReg) (rs1_ : Reg) : WordFits.Statement (.vmvVX t_ c_ vs_ rs1_) := by
  refine hasWord rfl ?_
  have := vs_.isLt
  have := rs1_.isLt
  apply fmtVC_lt <;> omega
theorem WordFits.vintOp (t_ : TileId) (c_ : CtxId) (op_ : VIntOp) (vd_ vs1_ : VReg) (b_ : VSrc) (m_ : Bool) : WordFits.Statement (.vintOp t_ c_ op_ vd_ vs1_ b_ m_) := by
  refine hasWord rfl ?_
  have := idxOf_lt vintOps op_ (by decide)
  have := vd_.isLt
  have := vs1_.isLt
  have := vsrcBits_lt b_
  have := b2n_le m_
  simp only [vintOps, List.length_cons, List.length_nil] at *
  apply fmtV_lt <;> omega
theorem WordFits.vfpOp (t_ : TileId) (c_ : CtxId) (op_ : VFpOp) (vd_ vs1_ : VReg) (b_ : VSrc) (m_ : Bool) : WordFits.Statement (.vfpOp t_ c_ op_ vd_ vs1_ b_ m_) := by
  refine hasWord rfl ?_
  have := idxOf_lt vfpOps op_ (by decide)
  have := vd_.isLt
  have := vs1_.isLt
  have := vsrcBits_lt b_
  have := b2n_le m_
  simp only [vfpOps, List.length_cons, List.length_nil] at *
  apply fmtV_lt <;> omega
theorem WordFits.vcompare (t_ : TileId) (c_ : CtxId) (op_ : VCmpOp) (vd_ vs1_ : VReg) (b_ : VSrc) (m_ : Bool) : WordFits.Statement (.vcompare t_ c_ op_ vd_ vs1_ b_ m_) := by
  refine hasWord rfl ?_
  have := vcmpFn_le op_
  have := vd_.isLt
  have := vs1_.isLt
  have := vsrcBits_lt b_
  have := b2n_le m_
  apply fmtV_lt <;> omega
theorem WordFits.vmerge (t_ : TileId) (c_ : CtxId) (vd_ vs1_ : VReg) (b_ : VSrc) : WordFits.Statement (.vmerge t_ c_ vd_ vs1_ b_) := by
  refine hasWord rfl ?_
  have := vd_.isLt
  have := vs1_.isLt
  have := vsrcBits_lt b_
  apply fmtV_lt <;> omega
theorem WordFits.vfcvt (t_ : TileId) (c_ : CtxId) (toInt_ : Bool) (vd_ vs1_ : VReg) (m_ : Bool) : WordFits.Statement (.vfcvt t_ c_ toInt_ vd_ vs1_ m_) := by
  refine hasWord rfl ?_
  have := b2n_le toInt_
  have := vd_.isLt
  have := vs1_.isLt
  have := b2n_le m_
  apply fmtV_lt <;> first | omega | (split <;> omega)
theorem WordFits.vfdivVfsqrt (t_ : TileId) (c_ : CtxId) (sqrt_ : Bool) (vd_ vs1_ vs2_ : VReg) (m_ : Bool) : WordFits.Statement (.vfdivVfsqrt t_ c_ sqrt_ vd_ vs1_ vs2_ m_) := by
  refine hasWord rfl ?_
  have := b2n_le sqrt_
  have := vd_.isLt
  have := vs1_.isLt
  have := vs2_.isLt
  have := b2n_le m_
  apply fmtV_lt <;> first | omega | (split <;> omega)
theorem WordFits.vwidenMul (t_ : TileId) (c_ : CtxId) (op_ : VWidenOp) (vd_ vs1_ vs2_ : VReg) (m_ : Bool) : WordFits.Statement (.vwidenMul t_ c_ op_ vd_ vs1_ vs2_ m_) := by
  refine hasWord rfl ?_
  have := idxOf_lt vwidenOps op_ (by decide)
  have := vd_.isLt
  have := vs1_.isLt
  have := vs2_.isLt
  have := b2n_le m_
  simp only [vwidenOps, List.length_cons, List.length_nil] at *
  apply fmtV_lt <;> omega
theorem WordFits.vdot (t_ : TileId) (c_ : CtxId) (op_ : VDotOp) (vd_ vs1_ vs2_ : VReg) (m_ : Bool) : WordFits.Statement (.vdot t_ c_ op_ vd_ vs1_ vs2_ m_) := by
  refine hasWord rfl ?_
  have := idxOf_lt vdotOps op_ (by decide)
  have := vd_.isLt
  have := vs1_.isLt
  have := vs2_.isLt
  have := b2n_le m_
  simp only [vdotOps, List.length_cons, List.length_nil] at *
  apply fmtV_lt <;> omega
theorem WordFits.vreduceInt (t_ : TileId) (c_ : CtxId) (op_ : VRedIOp) (vd_ vs1_ : VReg) (m_ : Bool) : WordFits.Statement (.vreduceInt t_ c_ op_ vd_ vs1_ m_) := by
  refine hasWord rfl ?_
  have := idxOf_lt vredIOps op_ (by decide)
  have := vd_.isLt
  have := vs1_.isLt
  have := b2n_le m_
  simp only [vredIOps, List.length_cons, List.length_nil] at *
  apply fmtV_lt <;> omega
theorem WordFits.vreduceFp (t_ : TileId) (c_ : CtxId) (op_ : VRedFOp) (vd_ vs1_ : VReg) (m_ : Bool) : WordFits.Statement (.vreduceFp t_ c_ op_ vd_ vs1_ m_) := by
  refine hasWord rfl ?_
  have := idxOf_lt vredFOps op_ (by decide)
  have := vd_.isLt
  have := vs1_.isLt
  have := b2n_le m_
  simp only [vredFOps, List.length_cons, List.length_nil] at *
  apply fmtV_lt <;> omega
theorem WordFits.vrgather (t_ : TileId) (c_ : CtxId) (vd_ vs1_ vs2_ : VReg) (m_ : Bool) : WordFits.Statement (.vrgather t_ c_ vd_ vs1_ vs2_ m_) := by
  refine hasWord rfl ?_
  have := vd_.isLt
  have := vs1_.isLt
  have := vs2_.isLt
  have := b2n_le m_
  apply fmtV_lt <;> omega
theorem WordFits.vslideup (t_ : TileId) (c_ : CtxId) (vd_ vs1_ : VReg) (rs2_ : Reg) (m_ : Bool) : WordFits.Statement (.vslideup t_ c_ vd_ vs1_ rs2_ m_) := by
  refine hasWord rfl ?_
  have := vd_.isLt
  have := vs1_.isLt
  have := rs2_.isLt
  have := b2n_le m_
  apply fmtV_lt <;> omega
theorem WordFits.vslidedown (t_ : TileId) (c_ : CtxId) (vd_ vs1_ : VReg) (rs2_ : Reg) (m_ : Bool) : WordFits.Statement (.vslidedown t_ c_ vd_ vs1_ rs2_ m_) := by
  refine hasWord rfl ?_
  have := vd_.isLt
  have := vs1_.isLt
  have := rs2_.isLt
  have := b2n_le m_
  apply fmtV_lt <;> omega
theorem WordFits.vcompress (t_ : TileId) (c_ : CtxId) (vd_ vs1_ : VReg) : WordFits.Statement (.vcompress t_ c_ vd_ vs1_) := by
  refine hasWord rfl ?_
  have := vd_.isLt
  have := vs1_.isLt
  apply fmtV_lt <;> omega
theorem WordFits.vid (t_ : TileId) (c_ : CtxId) (vd_ : VReg) (m_ : Bool) : WordFits.Statement (.vid t_ c_ vd_ m_) := by
  refine hasWord rfl ?_
  have := vd_.isLt
  have := b2n_le m_
  apply fmtV_lt <;> omega
theorem WordFits.vmacm (t_ : TileId) (c_ : CtxId) (fp_ : Bool) (vd_ : VReg) (rs1_ rs2_ : Reg) (m_ : Bool) : WordFits.Statement (.vmacm t_ c_ fp_ vd_ rs1_ rs2_ m_) := by
  refine hasWord rfl ?_
  have := b2n_le fp_
  have := vd_.isLt
  have := rs1_.isLt
  have := rs2_.isLt
  have := b2n_le m_
  apply fmtV_lt <;> first | omega | (split <;> omega)
theorem WordFits.vload (t_ : TileId) (c_ : CtxId) (vd_ : VReg) (rs1_ : Reg) (seg_ : Option SegId) (m_ : Bool) (mode_ : VMode) : WordFits.Statement (.vload t_ c_ vd_ rs1_ seg_ m_ mode_) := by
  refine hasWord rfl ?_
  have := vd_.isLt
  have := rs1_.isLt
  have := b2n_le m_
  apply fmtVM_lt <;> omega
theorem WordFits.vstore (t_ : TileId) (c_ : CtxId) (vs_ : VReg) (rs1_ : Reg) (seg_ : Option SegId) (m_ : Bool) (mode_ : VMode) : WordFits.Statement (.vstore t_ c_ vs_ rs1_ seg_ m_ mode_) := by
  refine hasWord rfl ?_
  have := vs_.isLt
  have := rs1_.isLt
  have := b2n_le m_
  apply fmtVM_lt <;> omega
theorem WordFits.vamo (t_ : TileId) (c_ : CtxId) (op_ : VAmoOp) (vd_ vs1_ vs2_ : VReg) (seg_ : SegId) (m_ : Bool) : WordFits.Statement (.vamo t_ c_ op_ vd_ vs1_ vs2_ seg_ m_) := by
  refine hasWord rfl ?_
  have := idxOf_lt vamoOps op_ (by decide)
  have := vd_.isLt
  have := vs1_.isLt
  have := vs2_.isLt
  have := seg_.isLt
  have := b2n_le m_
  simp only [vamoOps, List.length_cons, List.length_nil] at *
  apply fmtV_lt <;> omega
theorem WordFits.laneGroup (t_ : TileId) (k_ : Nat) : WordFits.Statement (.laneGroup t_ k_) := noWord rfl
theorem WordFits.laneFinish (t_ : TileId) (k_ : Nat) : WordFits.Statement (.laneFinish t_ k_) := noWord rfl
theorem WordFits.vloadResponse (t_ : TileId) (k_ : Nat) : WordFits.Statement (.vloadResponse t_ k_) := noWord rfl
theorem WordFits.mxIssue (t_ : TileId) (cycle_ : Nat) : WordFits.Statement (.mxIssue t_ cycle_) := noWord rfl
theorem WordFits.mxPassStart (t_ : TileId) : WordFits.Statement (.mxPassStart t_) := noWord rfl
theorem WordFits.mxRowExit (t_ : TileId) : WordFits.Statement (.mxRowExit t_) := noWord rfl
theorem WordFits.mxComplete (t_ : TileId) : WordFits.Statement (.mxComplete t_) := noWord rfl
theorem WordFits.mbOpenTimeout (t_ : TileId) (k_ : Nat) : WordFits.Statement (.mbOpenTimeout t_ k_) := noWord rfl
theorem WordFits.mbDrain (t_ : TileId) : WordFits.Statement (.mbDrain t_) := noWord rfl
theorem WordFits.drainAck (t_ : TileId) : WordFits.Statement (.drainAck t_) := noWord rfl
theorem WordFits.cacheFill (t_ : TileId) (src_ : FillSrc) : WordFits.Statement (.cacheFill t_ src_) := noWord rfl
theorem WordFits.stackCacheRequest (t_ : TileId) (r_ : HomeReq) (errs_ : List SymErr) : WordFits.Statement (.stackCacheRequest t_ r_ errs_) := noWord rfl
theorem WordFits.patrolRead (d_ : CDie) (inner_ : Nat) (errs_ : List SymErr) : WordFits.Statement (.patrolRead d_ inner_ errs_) := noWord rfl
theorem WordFits.tempSample (d_ : CDie) (readings_ : List (Option (BitVec 8))) : WordFits.Statement (.tempSample d_ readings_) := noWord rfl
theorem WordFits.tokenRefill (d_ : CDie) : WordFits.Statement (.tokenRefill d_) := noWord rfl
theorem WordFits.rangeOpStart (t_ : TileId) : WordFits.Statement (.rangeOpStart t_) := noWord rfl
theorem WordFits.rangeOpComplete (t_ : TileId) : WordFits.Statement (.rangeOpComplete t_) := noWord rfl
theorem WordFits.arbiterRound (a_ : RouterOut) (arrivals_ : List PktRef) : WordFits.Statement (.arbiterRound a_ arrivals_) := noWord rfl
theorem WordFits.censusExpiry (a_ : ArbId) (i_ : Fin 10) : WordFits.Statement (.censusExpiry a_ i_) := noWord rfl
theorem WordFits.pathSwitch (t_ : TileId) (d_ : DieIdx) : WordFits.Statement (.pathSwitch t_ d_) := noWord rfl
theorem WordFits.bridgeDown (d_ : DieIdx) (egress_ : Fin 8) : WordFits.Statement (.bridgeDown d_ egress_) := noWord rfl
theorem WordFits.flitTransmit (p_ : PortId) : WordFits.Statement (.flitTransmit p_) := noWord rfl
theorem WordFits.flitReceive (p_ : PortId) (bytes_ : List Byte) : WordFits.Statement (.flitReceive p_ bytes_) := noWord rfl
theorem WordFits.nakReplay (p_ : PortId) : WordFits.Statement (.nakReplay p_) := noWord rfl
theorem WordFits.laneFail (p_ : PortId) (lane_ : Fin 8) (lost_ : Bool) : WordFits.Statement (.laneFail p_ lane_ lost_) := noWord rfl
theorem WordFits.retrainDone (p_ : PortId) (good_ : BitVec 8) (blk_ : Option (List Byte)) (idle_ : Bool) : WordFits.Statement (.retrainDone p_ good_ blk_ idle_) := noWord rfl
theorem WordFits.portTrainStep (p_ : PortId) (good_ : BitVec 8) (blk_ : List Byte) (ok_ : Bool) : WordFits.Statement (.portTrainStep p_ good_ blk_ ok_) := noWord rfl
theorem WordFits.detectRetry (p_ : PortId) : WordFits.Statement (.detectRetry p_) := noWord rfl
theorem WordFits.downRetrainTimer (p_ : PortId) : WordFits.Statement (.downRetrainTimer p_) := noWord rfl
theorem WordFits.transactionReceive (p_ : PortId) (errs_ : List SymErr) : WordFits.Statement (.transactionReceive p_ errs_) := noWord rfl
theorem WordFits.routeThrough (p_ : PortId) : WordFits.Statement (.routeThrough p_) := noWord rfl
theorem WordFits.linkResponse (p_ : PortId) : WordFits.Statement (.linkResponse p_) := noWord rfl
theorem WordFits.requestTimeout (p_ : PortId) (tag_ : Nat) : WordFits.Statement (.requestTimeout p_ tag_) := noWord rfl
theorem WordFits.messageReceive (errs_ : List SymErr) : WordFits.Statement (.messageReceive errs_) := noWord rfl
theorem WordFits.updatePut (l_ : LDie) (k_ : Nat) (errs_ : List SymErr) : WordFits.Statement (.updatePut l_ k_ errs_) := noWord rfl
theorem WordFits.updateAck (l_ : LDie) : WordFits.Statement (.updateAck l_) := noWord rfl
theorem WordFits.ueReload (a_ : Agent) (mask_ : BitVec 64) : WordFits.Statement (.ueReload a_ mask_) := noWord rfl
theorem WordFits.ueReloadDone (l_ : LDie) (k_ : Fin 64) (errs_ : List SymErr) : WordFits.Statement (.ueReloadDone l_ k_ errs_) := noWord rfl
theorem WordFits.ueUnpark (a_ : Agent) (mask_ : BitVec 64) : WordFits.Statement (.ueUnpark a_ mask_) := noWord rfl
theorem WordFits.configRequest (r_ : CfgReg) (w_ : Option (BitVec 64)) : WordFits.Statement (.configRequest r_ w_) := noWord rfl
theorem WordFits.configReady (l_ : LinkUp) : WordFits.Statement (.configReady l_) := noWord rfl
theorem WordFits.bar0BadAccess (read_ : Bool) (off_ len_ : Nat) : WordFits.Statement (.bar0BadAccess read_ off_ len_) := noWord rfl
theorem WordFits.mirrorRead (off_ : Fin 67108864) (wide_ : Bool) : WordFits.Statement (.mirrorRead off_ wide_) := noWord rfl
theorem WordFits.mirrorReadTimeout : WordFits.Statement (.mirrorReadTimeout) := noWord rfl
theorem WordFits.bar2Read (off_ : WindowOff) (len_ : Nat) (errs_ : List SymErr) : WordFits.Statement (.bar2Read off_ len_ errs_) := noWord rfl
theorem WordFits.bar2Write (off_ : Nat) (bytes_ : List Byte) (errs_ : List SymErr) : WordFits.Statement (.bar2Write off_ bytes_ errs_) := noWord rfl
theorem WordFits.bar4Write : WordFits.Statement .bar4Write := noWord rfl
theorem WordFits.hostReadCompletion (id_ : Nat) (ok_ : Bool) (data_ : List Byte) : WordFits.Statement (.hostReadCompletion id_ ok_ data_) := noWord rfl
theorem WordFits.translationCompletion (id_ : Nat) (ok_ : Bool) (base_ size_ target_ : Nat) (rd_ wr_ : Bool) : WordFits.Statement (.translationCompletion id_ ok_ base_ size_ target_ rd_ wr_) := noWord rfl
theorem WordFits.invalidateRequest (itag_ : Nat) (pasid_ : Option Nat) (base_ size_ : Nat) : WordFits.Statement (.invalidateRequest itag_ pasid_ base_ size_) := noWord rfl
theorem WordFits.invalLimitExpiry (itag_ : Nat) : WordFits.Statement (.invalLimitExpiry itag_) := noWord rfl
theorem WordFits.atsDisable : WordFits.Statement (.atsDisable) := noWord rfl
theorem WordFits.d3hotEntry : WordFits.Statement (.d3hotEntry) := noWord rfl
theorem WordFits.d0Return : WordFits.Statement (.d0Return) := noWord rfl
theorem WordFits.l0pNarrow (w_ : Nat) : WordFits.Statement (.l0pNarrow w_) := noWord rfl
theorem WordFits.l0pWiden : WordFits.Statement (.l0pWiden) := noWord rfl
theorem WordFits.l1Entry : WordFits.Statement (.l1Entry) := noWord rfl
theorem WordFits.flr : WordFits.Statement (.flr) := noWord rfl
theorem WordFits.hotReset : WordFits.Statement (.hotReset) := noWord rfl
theorem WordFits.doorbell (q_ : QueueId) (tail_ : BitVec 32) : WordFits.Statement (.doorbell q_ tail_) := noWord rfl
theorem WordFits.tileDoorbell (t_ : TileId) (q_ : QueueId) (tail_ : BitVec 32) : WordFits.Statement (.tileDoorbell t_ q_ tail_) := noWord rfl
theorem WordFits.queueEnable (q_ : QueueId) : WordFits.Statement (.queueEnable q_) := noWord rfl
theorem WordFits.queueDisable (q_ : QueueId) : WordFits.Statement (.queueDisable q_) := noWord rfl
theorem WordFits.queueResume (q_ : QueueId) : WordFits.Statement (.queueResume q_) := noWord rfl
theorem WordFits.queueCancel (q_ : QueueId) : WordFits.Statement (.queueCancel q_) := noWord rfl
theorem WordFits.queueReset (q_ : QueueId) : WordFits.Statement (.queueReset q_) := noWord rfl
theorem WordFits.fetchRunStart (q_ : QueueId) : WordFits.Statement (.fetchRunStart q_) := noWord rfl
theorem WordFits.ringFetchDone (q_ : QueueId) (host_ : List Byte) (errs_ : List SymErr) : WordFits.Statement (.ringFetchDone q_ host_ errs_) := noWord rfl
theorem WordFits.ringFetchFault (q_ : QueueId) : WordFits.Statement (.ringFetchFault q_) := noWord rfl
theorem WordFits.drainTest (q_ : QueueId) : WordFits.Statement (.drainTest q_) := noWord rfl
theorem WordFits.descriptorStart (q_ : QueueId) : WordFits.Statement (.descriptorStart q_) := noWord rfl
theorem WordFits.descriptorComplete (q_ : QueueId) (idx_ : BitVec 32) : WordFits.Statement (.descriptorComplete q_ idx_) := noWord rfl
theorem WordFits.copy (q_ : QueueId) (idx_ : BitVec 32) (errs_ : List SymErr) : WordFits.Statement (.copy q_ idx_ errs_) := noWord rfl
theorem WordFits.launchStart (q_ : QueueId) : WordFits.Statement (.launchStart q_) := noWord rfl
theorem WordFits.launchEnd (q_ : QueueId) (idx_ : BitVec 32) : WordFits.Statement (.launchEnd q_ idx_) := noWord rfl
theorem WordFits.fenceWrite (f_ : Fin 16384) (v_ : Written (BitVec 64)) : WordFits.Statement (.fenceWrite f_ v_) := noWord rfl
theorem WordFits.fenceClr (f_ : Written (Fin 16384)) : WordFits.Statement (.fenceClr f_) := noWord rfl
theorem WordFits.serviceDelivery (q_ : QueueId) (errs_ : List SymErr) : WordFits.Statement (.serviceDelivery q_ errs_) := noWord rfl
theorem WordFits.svcDone (t_ : TileId) (q_ : QueueId) (status_ : BitVec 16) (index_ : BitVec 32) : WordFits.Statement (.svcDone t_ q_ status_ index_) := noWord rfl
theorem WordFits.qfPost (t_ : TileId) (q_ : QueueId) (count_ : BitVec 6) (addr_ : BitVec 42) (errs_ : List SymErr) : WordFits.Statement (.qfPost t_ q_ count_ addr_ errs_) := noWord rfl
theorem WordFits.watchdogExpiry (q_ : QueueId) : WordFits.Statement (.watchdogExpiry q_) := noWord rfl
theorem WordFits.fenceCycleSweep : WordFits.Statement (.fenceCycleSweep) := noWord rfl
theorem WordFits.queueResetDone (q_ : QueueId) : WordFits.Statement (.queueResetDone q_) := noWord rfl
theorem WordFits.letterboxRegister (v_ : Written (BitVec 64)) : WordFits.Statement (.letterboxRegister v_) := noWord rfl
theorem WordFits.rringConfig (r_ : Fin 64) (v_ : Written (BitVec 64)) : WordFits.Statement (.rringConfig r_ v_) := noWord rfl
theorem WordFits.rringConsWrite (r_ : Fin 64) (v_ : Written (BitVec 32)) : WordFits.Statement (.rringConsWrite r_ v_) := noWord rfl
theorem WordFits.errConsWrite (v_ : Written (BitVec 32)) : WordFits.Statement (.errConsWrite v_) := noWord rfl
theorem WordFits.receiptPost (r_ : Fin 64) : WordFits.Statement (.receiptPost r_) := noWord rfl
theorem WordFits.queueWordPost (q_ : QueueId) : WordFits.Statement (.queueWordPost q_) := noWord rfl
theorem WordFits.globalBlockPost : WordFits.Statement (.globalBlockPost) := noWord rfl
theorem WordFits.lbHeartbeat : WordFits.Statement (.lbHeartbeat) := noWord rfl
theorem WordFits.amendFullLoad (host_ : Option (List Byte)) (flash_ : Bool) (errs_ : List SymErr) : WordFits.Statement (.amendFullLoad host_ flash_ errs_) := noWord rfl
theorem WordFits.amendAmendment (host_ : Option (List Byte)) (flash_ : Bool) (errs_ : List SymErr) : WordFits.Statement (.amendAmendment host_ flash_ errs_) := noWord rfl
theorem WordFits.quiesceEnd : WordFits.Statement (.quiesceEnd) := noWord rfl
theorem WordFits.quiesceTimeout : WordFits.Statement (.quiesceTimeout) := noWord rfl
theorem WordFits.runtimeLaunch : WordFits.Statement (.runtimeLaunch) := noWord rfl
theorem WordFits.svcGenerate (q_ : QueueId) (errs_ : List SymErr) : WordFits.Statement (.svcGenerate q_ errs_) := noWord rfl
theorem WordFits.svcCancel (q_ : QueueId) : WordFits.Statement (.svcCancel q_) := noWord rfl
theorem WordFits.svcRegister (q_ : QueueId) (errs_ : List SymErr) : WordFits.Statement (.svcRegister q_ errs_) := noWord rfl
theorem WordFits.svcUnregister (q_ : QueueId) : WordFits.Statement (.svcUnregister q_) := noWord rfl
theorem WordFits.admission (const_ model_ : Nat) : WordFits.Statement (.admission const_ model_) := noWord rfl
theorem WordFits.halfStep (const_ model_ : Nat) (standby_ : Bool) (half_ : Fin 2) : WordFits.Statement (.halfStep const_ model_ standby_ half_) := noWord rfl
theorem WordFits.instanceLoss (const_ model_ : Nat) : WordFits.Statement (.instanceLoss const_ model_) := noWord rfl
theorem WordFits.tileIdleT1 (t_ : TileId) : WordFits.Statement (.tileIdleT1 t_) := noWord rfl
theorem WordFits.tileT2Entry (t_ : TileId) : WordFits.Statement (.tileT2Entry t_) := noWord rfl
theorem WordFits.tileWake (t_ : TileId) : WordFits.Statement (.tileWake t_) := noWord rfl
theorem WordFits.opPointChange (t_ : TileId) : WordFits.Statement (.opPointChange t_) := noWord rfl
theorem WordFits.powerInterval (pin_ : Nat) (est_ : SMap Nat) : WordFits.Statement (.powerInterval pin_ est_) := noWord rfl
theorem WordFits.overPower (pin_ : Nat) : WordFits.Statement (.overPower pin_) := noWord rfl
theorem WordFits.overpowerClear (d_ : CDie) : WordFits.Statement (.overpowerClear d_) := noWord rfl
theorem WordFits.overpowerAutoLift : WordFits.Statement (.overpowerAutoLift) := noWord rfl
theorem WordFits.pwrbrkAssert : WordFits.Statement (.pwrbrkAssert) := noWord rfl
theorem WordFits.pwrbrkDeassert : WordFits.Statement (.pwrbrkDeassert) := noWord rfl
theorem WordFits.brakeHoldExpiry : WordFits.Statement (.brakeHoldExpiry) := noWord rfl
theorem WordFits.brakeInterval (pin_ : Nat) (est_ : SMap Nat) : WordFits.Statement (.brakeInterval pin_ est_) := noWord rfl
theorem WordFits.brakeStuck : WordFits.Statement (.brakeStuck) := noWord rfl
theorem WordFits.brakeMask (b_ : List Byte) : WordFits.Statement (.brakeMask b_) := noWord rfl
theorem WordFits.m2EnterReq : WordFits.Statement (.m2EnterReq) := noWord rfl
theorem WordFits.m0ReturnReq : WordFits.Statement (.m0ReturnReq) := noWord rfl
theorem WordFits.m1Entry : WordFits.Statement (.m1Entry) := noWord rfl
theorem WordFits.m1Exit : WordFits.Statement (.m1Exit) := noWord rfl
theorem WordFits.provisionId (x_ : Sideband) : WordFits.Statement (.provisionId x_) := noWord rfl
theorem WordFits.fwUpdate (k_ : Fin 4) (image_ : List Byte) : WordFits.Statement (.fwUpdate k_ image_) := noWord rfl
theorem WordFits.spdmGetVersion (m_ : SpdmTarget) : WordFits.Statement (.spdmGetVersion m_) := noWord rfl
theorem WordFits.spdmGetCapabilities (m_ : SpdmTarget) (ver_ : BitVec 8) : WordFits.Statement (.spdmGetCapabilities m_ ver_) := noWord rfl
theorem WordFits.spdmNegotiateAlgorithms (m_ : SpdmTarget) (ver_ : BitVec 8) : WordFits.Statement (.spdmNegotiateAlgorithms m_ ver_) := noWord rfl
theorem WordFits.spdmGetDigests (m_ : SpdmTarget) (ver_ : BitVec 8) : WordFits.Statement (.spdmGetDigests m_ ver_) := noWord rfl
theorem WordFits.spdmGetCertificate (m_ : SpdmTarget) (ver_ : BitVec 8) (slot_ : Fin 16) (off_ len_ : BitVec 16) : WordFits.Statement (.spdmGetCertificate m_ ver_ slot_ off_ len_) := noWord rfl
theorem WordFits.spdmChallenge (m_ : SpdmTarget) (ver_ : BitVec 8) (slot_ : Fin 16) (nonce_ : List Byte) : WordFits.Statement (.spdmChallenge m_ ver_ slot_ nonce_) := noWord rfl
theorem WordFits.spdmGetMeasurements (m_ : SpdmTarget) (ver_ : BitVec 8) (index_ : BitVec 8) (sign_ : Bool) (nonce_ : List Byte) : WordFits.Statement (.spdmGetMeasurements m_ ver_ index_ sign_ nonce_) := noWord rfl
theorem WordFits.spdmChunkSend (m_ : SpdmTarget) (ver_ : BitVec 8) (handle_ : BitVec 8) (seq_ : Nat) (last_ : Bool) (bytes_ : List Byte) : WordFits.Statement (.spdmChunkSend m_ ver_ handle_ seq_ last_ bytes_) := noWord rfl
theorem WordFits.spdmChunkGet (m_ : SpdmTarget) (ver_ : BitVec 8) (handle_ : BitVec 8) (seq_ : Nat) : WordFits.Statement (.spdmChunkGet m_ ver_ handle_ seq_) := noWord rfl
theorem WordFits.getChallenge (x_ : Sideband) : WordFits.Statement (.getChallenge x_) := noWord rfl
theorem WordFits.challengeExpiry : WordFits.Statement (.challengeExpiry) := noWord rfl
theorem WordFits.debugToken (x_ : Sideband) (b_ : List Byte) : WordFits.Statement (.debugToken x_ b_) := noWord rfl
theorem WordFits.meterAuditAck : WordFits.Statement (.meterAuditAck) := noWord rfl
theorem WordFits.debugClose (x_ : Sideband) : WordFits.Statement (.debugClose x_) := noWord rfl
theorem WordFits.sessionExpiry : WordFits.Statement (.sessionExpiry) := noWord rfl
theorem WordFits.debugHalt (t_ : TileId) (c_ : CtxId) : WordFits.Statement (.debugHalt t_ c_) := noWord rfl
theorem WordFits.debugResume (t_ : TileId) (c_ : CtxId) (one_ : Bool) : WordFits.Statement (.debugResume t_ c_ one_) := noWord rfl
theorem WordFits.debugAccess (p_ : DbgPlace) (w_ : Option (List Byte)) : WordFits.Statement (.debugAccess p_ w_) := noWord rfl
theorem WordFits.lifecycle (b_ : List Byte) (owner_ : List Byte) : WordFits.Statement (.lifecycle b_ owner_) := noWord rfl
theorem WordFits.wipeDone : WordFits.Statement (.wipeDone) := noWord rfl
theorem WordFits.activityPostSend (t_ : TileId) : WordFits.Statement (.activityPostSend t_) := noWord rfl
theorem WordFits.activityPostReceive : WordFits.Statement (.activityPostReceive) := noWord rfl
theorem WordFits.energySample (v_ i_ : BitVec 24) : WordFits.Statement (.energySample v_ i_) := noWord rfl
theorem WordFits.meterIntervalEnd : WordFits.Statement (.meterIntervalEnd) := noWord rfl
theorem WordFits.postmark : WordFits.Statement (.postmark) := noWord rfl
theorem WordFits.chartMessage : WordFits.Statement (.chartMessage) := noWord rfl
theorem WordFits.debugEventReceive : WordFits.Statement (.debugEventReceive) := noWord rfl
theorem WordFits.meterGetChallenge : WordFits.Statement (.meterGetChallenge) := noWord rfl
theorem WordFits.readLedger (index_ n_ : Nat) : WordFits.Statement (.readLedger index_ n_) := noWord rfl
theorem WordFits.readPostmark (block_ : Nat) : WordFits.Statement (.readPostmark block_) := noWord rfl
theorem WordFits.setParam (p_ : Fin 65536) (v_ : List Byte) (token_ : Option (List Byte)) : WordFits.Statement (.setParam p_ v_ token_) := noWord rfl
theorem WordFits.seal (target_ : Fin 256) (token_ : Option (List Byte)) : WordFits.Statement (.seal target_ token_) := noWord rfl
theorem WordFits.meterProvision : WordFits.Statement (.meterProvision) := noWord rfl
theorem WordFits.meterFwUpdate (image_ : List Byte) (token_ : Option (List Byte)) : WordFits.Statement (.meterFwUpdate image_ token_) := noWord rfl
theorem WordFits.windowPush : WordFits.Statement (.windowPush) := noWord rfl
theorem WordFits.meterFault : WordFits.Statement (.meterFault) := noWord rfl
theorem WordFits.errorRecordPost : WordFits.Statement (.errorRecordPost) := noWord rfl
theorem WordFits.fenceReleaseTest (mask_ : BitVec 16) : WordFits.Statement (.fenceReleaseTest mask_) := noWord rfl
theorem WordFits.releaseTestDone (d_ : CDie) (pass_ : Bool) : WordFits.Statement (.releaseTestDone d_ pass_) := noWord rfl
theorem WordFits.lsHeartbeat (standby_ : Bool) : WordFits.Statement (.lsHeartbeat standby_) := noWord rfl
theorem WordFits.lsFailover : WordFits.Statement (.lsFailover) := noWord rfl
theorem WordFits.lsPeerLost : WordFits.Statement (.lsPeerLost) := noWord rfl
theorem WordFits.orphanFence (i_ : DieIdx) : WordFits.Statement (.orphanFence i_) := noWord rfl
theorem WordFits.auxGood (modId_ : Fin 16) : WordFits.Statement (.auxGood modId_) := noWord rfl
theorem WordFits.mainGood : WordFits.Statement (.mainGood) := noWord rfl
theorem WordFits.mainLost : WordFits.Statement (.mainLost) := noWord rfl
theorem WordFits.auxLost : WordFits.Statement (.auxLost) := noWord rfl
theorem WordFits.startupStepDone (k_ : Fin 10) (bad_ : BitVec 28) : WordFits.Statement (.startupStepDone k_ bad_) := noWord rfl
theorem WordFits.perstAssert : WordFits.Statement (.perstAssert) := noWord rfl
theorem WordFits.perstDeassert : WordFits.Statement (.perstDeassert) := noWord rfl
theorem WordFits.resetHoldDone : WordFits.Statement (.resetHoldDone) := noWord rfl
theorem WordFits.hxReset (v_ : BitVec 64) : WordFits.Statement (.hxReset v_) := noWord rfl
theorem WordFits.trimRead (x_ : Sideband) (save_ : Bool) : WordFits.Statement (.trimRead x_ save_) := noWord rfl
theorem WordFits.trimWrite (b_ : List Byte) : WordFits.Statement (.trimWrite b_) := noWord rfl
theorem WordFits.trimSave : WordFits.Statement (.trimSave) := noWord rfl
theorem WordFits.trimRestore : WordFits.Statement (.trimRestore) := noWord rfl
theorem WordFits.thermalTrip (i_ : DieIdx) : WordFits.Statement (.thermalTrip i_) := noWord rfl
theorem WordFits.thermtripRelease : WordFits.Statement (.thermtripRelease) := noWord rfl
theorem WordFits.registerWrite (a_ : Agent) (p_ : RegPlace) (wide_ : Bool) (v_ : BitVec 64) : WordFits.Statement (.registerWrite a_ p_ wide_ v_) := noWord rfl
theorem WordFits.hostCompletionTimeout (trans_ : Bool) (id_ : Nat) : WordFits.Statement (.hostCompletionTimeout trans_ id_) := noWord rfl
theorem WordFits.l1Exit : WordFits.Statement (.l1Exit) := noWord rfl
theorem WordFits.pcieAer (cor_ : BitVec 32) (unc_ : AerUnc) : WordFits.Statement (.pcieAer cor_ unc_) := noWord rfl
theorem WordFits.dieFatal (i_ : DieIdx) (reason_ : BitVec 32) : WordFits.Statement (.dieFatal i_ reason_) := noWord rfl
theorem WordFits.illegalWord (t_ : TileId) (c_ : CtxId) (w_ : BitVec 32) : WordFits.Statement (.illegalWord t_ c_ w_) := noWord rfl
theorem WordFits.instructionFetchFault (t_ : TileId) (c_ : CtxId) : WordFits.Statement (.instructionFetchFault t_ c_) := noWord rfl
theorem WordFits.spdmUnsupportedRequest (m_ : SpdmTarget) (ver_ : BitVec 8) : WordFits.Statement (.spdmUnsupportedRequest m_ ver_) := noWord rfl
theorem WordFits.pldmOwnerReset : WordFits.Statement (.pldmOwnerReset) := noWord rfl
theorem WordFits.i3cCcc (a_ : I3cAssign) : WordFits.Statement (.i3cCcc a_) := noWord rfl
theorem WordFits.meterChallengeExpiry : WordFits.Statement (.meterChallengeExpiry) := noWord rfl

end Laws
end Sys2Proof
end

