-- ==== Sys2Proof/Laws/Store.lean ====
section
/-!
SUPPORT. Byte stores: a read after a write, and that every operation keeps the canonical form.
-/

namespace Sys2Proof
namespace Machine

/-- The addresses of a cell list are strictly rising, all above a bound. -/
def risingFrom : Nat → List Host.Cell → Prop
  | _, [] => True
  | n, p :: r => n ≤ p.1 ∧ risingFrom (p.1 + 1) r

theorem risingFrom_mono {n m : Nat} {l : List Host.Cell} (h : n ≤ m) (hl : risingFrom m l) : risingFrom n l := by
  cases l with
  | nil => trivial
  | cons p r => exact ⟨Nat.le_trans h hl.1, hl.2⟩

theorem cellsRising_iff (l : List Host.Cell) : cellsRising l = true ↔ risingFrom 0 l := by
  induction l with
  | nil => simp [cellsRising, risingFrom]
  | cons p r ih =>
    cases r with
    | nil => simp [cellsRising, risingFrom]
    | cons q r =>
      simp only [cellsRising, Bool.and_eq_true, decide_eq_true_eq, ih]
      simp only [risingFrom]
      constructor
      · rintro ⟨h, -, h2⟩; exact ⟨Nat.zero_le _, h, h2⟩
      · rintro ⟨-, h, h2⟩; exact ⟨h, Nat.zero_le _, h2⟩

/-- Below its bound a rising list holds nothing. -/
theorem cellFind_below {n a : Nat} {l : List Host.Cell} (h : a < n) (hl : risingFrom n l) : cellFind l a = none := by
  cases l with
  | nil => rfl
  | cons p r =>
    obtain ⟨b, v⟩ := p
    have h1 : ¬ b = a := by have := hl.1; simp at this; omega
    have h2 : a < b := by have := hl.1; simp at this; omega
    simp [cellFind, h1, h2]

theorem cellFind_cellSet {l : List Host.Cell} {n : Nat} (hl : risingFrom n l) (k a : Nat) (v : Byte) :
    cellFind (cellSet l k v) a = if a = k then some v else cellFind l a := by
  induction l generalizing n with
  | nil =>
    by_cases h : a = k
    · simp [cellSet, cellFind, h]
    · have : ¬ k = a := fun e => h e.symm
      simp [cellSet, cellFind, h, this]
  | cons p r ih =>
    obtain ⟨b, w⟩ := p
    have hr := hl.2
    simp only [cellSet]
    split
    · rename_i hkb
      by_cases h : a = k
      · simp [cellFind, h]
      · have h1 : ¬ k = a := fun e => h e.symm
        by_cases h2 : a < k
        · have : ¬ b = a := by omega
          have : a < b := by omega
          simp [cellFind, *]
        · simp [cellFind, h, h1, h2]
    · split
      · subst k
        by_cases h : a = b
        · simp [cellFind, h]
        · have : ¬ b = a := fun e => h e.symm
          simp [cellFind, h, this]
      · rename_i h1 h2
        by_cases h : b = a
        · subst h
          have : ¬ b = k := fun e => h2 e.symm
          simp [cellFind, this]
        · by_cases h3 : a < b
          · have : ¬ a = k := by omega
            simp [cellFind, h, h3, this]
          · simp [cellFind, h, h3, ih hr]

theorem risingFrom_cellSet {l : List Host.Cell} {n k : Nat} (v : Byte) (hl : risingFrom n l) (hk : n ≤ k) :
    risingFrom n (cellSet l k v) := by
  induction l generalizing n with
  | nil => exact ⟨hk, trivial⟩
  | cons p r ih =>
    obtain ⟨b, w⟩ := p
    obtain ⟨h0, hr⟩ := hl
    simp only [cellSet]
    split
    · exact ⟨hk, Nat.succ_le_of_lt (by assumption), hr⟩
    · split
      · subst k; exact ⟨h0, hr⟩
      · exact ⟨h0, ih hr (by simp; omega)⟩

theorem risingFrom_cellErase {l : List Host.Cell} {n : Nat} (k : Nat) (hl : risingFrom n l) : risingFrom n (cellErase l k) := by
  induction l generalizing n with
  | nil => trivial
  | cons p r ih =>
    obtain ⟨b, w⟩ := p
    obtain ⟨h0, hr⟩ := hl
    simp only [cellErase]
    split
    · exact risingFrom_mono (by simp at h0; simp; omega) hr
    · split
      · exact ⟨h0, hr⟩
      · exact ⟨h0, ih hr⟩

theorem cellFind_cellErase {l : List Host.Cell} {n : Nat} (hl : risingFrom n l) (k a : Nat) :
    cellFind (cellErase l k) a = if a = k then none else cellFind l a := by
  induction l generalizing n with
  | nil => simp [cellErase, cellFind]
  | cons p r ih =>
    obtain ⟨b, w⟩ := p
    have hr := hl.2
    simp only [cellErase]
    split
    · subst k
      by_cases h : a = b
      · subst h; simp [cellFind_below (Nat.lt_succ_self a) hr]
      · have h' : ¬ b = a := fun e => h e.symm
        by_cases h2 : a < b
        · simp [cellFind, h, h', h2, cellFind_below (Nat.lt_succ_of_lt h2) hr]
        · simp [cellFind, h, h', h2]
    · split
      · rename_i h1 h2
        by_cases h : a = k
        · subst h; simp [cellFind, h1, h2]
        · simp [h]
      · rename_i h1 h2
        by_cases h : a = k
        · subst h
          have : ¬ a < b := h2
          simp [cellFind, h1, this, ih hr]
        · simp only [cellFind, ih hr, h, if_false]

theorem mem_cellSet {l : List Host.Cell} {k : Nat} {v : Byte} {p : Host.Cell} (h : p ∈ cellSet l k v) : p = (k, v) ∨ p ∈ l := by
  induction l with
  | nil => simpa [cellSet] using h
  | cons q r ih =>
    simp only [cellSet] at h
    split at h
    · simpa using h
    · split at h
      · simp only [List.mem_cons] at h ⊢; rcases h with h | h <;> simp [h]
      · simp only [List.mem_cons] at h ⊢
        rcases h with h | h
        · simp [h]
        · rcases ih h with h | h <;> simp [h]

theorem mem_cellErase {l : List Host.Cell} {k : Nat} {p : Host.Cell} (h : p ∈ cellErase l k) : p ∈ l := by
  induction l with
  | nil => simp [cellErase] at h
  | cons q r ih =>
    simp only [cellErase] at h
    split at h
    · simp [h]
    · split at h
      · exact h
      · simp only [List.mem_cons] at h ⊢
        rcases h with h | h
        · simp [h]
        · simp [ih h]

theorem stWf_iff (m : Store) :
    stWf m = true ↔ risingFrom 0 m.cells ∧ ∀ p ∈ m.cells, ¬ (p.2 = 0#8 ∧ stGen m p.1 = 0) := by
  simp only [stWf, Bool.and_eq_true, cellsRising_iff, List.all_eq_true]
  constructor
  · rintro ⟨h, g⟩
    refine ⟨h, fun p hp hh => ?_⟩
    have := g p hp
    simp [hh.1, hh.2] at this
  · rintro ⟨h, g⟩
    refine ⟨h, fun p hp => ?_⟩
    have := g p hp
    simp only [Bool.not_eq_true', Bool.and_eq_false_iff, beq_eq_false_iff_ne]
    by_cases h0 : p.2 = 0#8
    · right; exact fun e => this ⟨h0, e⟩
    · left; exact h0

/-- A write keeps the canonical form. -/
theorem stWf_stWrite (m : Store) (a : Nat) (b : Byte) (h : stWf m = true) : stWf (stWrite m a b) = true := by
  rw [stWf_iff] at h ⊢
  obtain ⟨hr, hz⟩ := h
  unfold stWrite
  by_cases hb : b = 0#8 ∧ stGen m a = 0
  · simp only [hb, and_self, if_true]
    exact ⟨risingFrom_cellErase a hr, fun p hp => hz p (mem_cellErase hp)⟩
  · simp only [hb, if_false]
    refine ⟨risingFrom_cellSet b hr (Nat.zero_le _), fun p hp => ?_⟩
    rcases mem_cellSet hp with h | h
    · subst h; exact hb
    · exact hz p h

theorem stWf_stWriteN (m : Store) (a : Nat) (l : List Byte) (h : stWf m = true) : stWf (stWriteN m a l) = true := by
  induction l generalizing m a with
  | nil => exact h
  | cons b r ih => exact ih _ _ (stWf_stWrite m a b h)

theorem stWf_stWriteOpt (m : Store) (a : Nat) (l : List (Option Byte)) (h : stWf m = true) :
    stWf (stWriteOpt m a l) = true := by
  induction l generalizing m a with
  | nil => exact h
  | cons b r ih =>
    cases b with
    | none => exact ih _ _ h
    | some b => exact ih _ _ (stWf_stWrite m a b h)

theorem stWf_stWriteLE (m : Store) (a n v : Nat) (h : stWf m = true) : stWf (stWriteLE m a n v) = true :=
  stWf_stWriteN m a _ h

theorem stWf_stFree (m : Store) (g a : Nat) (h : stWf m = true) : stWf (stFree m g a) = true := by
  rw [stWf_iff] at h ⊢
  exact ⟨risingFrom_cellErase a h.1, fun p hp => h.2 p (mem_cellErase hp)⟩

theorem stWf_stFreeN (m : Store) (g a n : Nat) (h : stWf m = true) : stWf (stFreeN m g a n) = true := by
  induction n with
  | zero => exact h
  | succ n ih => exact stWf_stFree _ g _ ih

theorem risingFrom_filter {l : List Host.Cell} {n : Nat} (p : Host.Cell → Bool) (h : risingFrom n l) :
    risingFrom n (l.filter p) := by
  induction l generalizing n with
  | nil => trivial
  | cons q r ih =>
    simp only [List.filter]
    split
    · exact ⟨h.1, ih h.2⟩
    · exact risingFrom_mono (by have := h.1; omega) (ih h.2)

theorem mget_foldl_mset_other {k : Nat} (g : Nat) (bs : List Nat) (m : SMap Nat) (h : k ∉ bs) :
    mget (bs.foldl (fun gs b => mset gs b g) m) 0 k = mget m 0 k := by
  induction bs generalizing m with
  | nil => rfl
  | cons b r ih =>
    have h1 : b ≠ k := fun e => h (by simp [e])
    have h2 : k ∉ r := fun e => h (by simp [e])
    rw [List.foldl_cons, ih _ h2, mget_mset_other _ _ _ _ _ h1]

theorem stWf_stScramble (m : Store) (g : Nat) (bs : List Nat) (h : stWf m = true) : stWf (stScramble m g bs) = true := by
  rw [stWf_iff] at h ⊢
  refine ⟨risingFrom_filter _ h.1, fun p hp => ?_⟩
  simp only [stScramble, List.mem_filter, Bool.not_eq_true', List.contains_eq_mem, decide_eq_false_iff_not] at hp
  have := h.2 p hp.1
  simpa [stScramble, stGen, mget_foldl_mset_other _ _ _ hp.2] using this

theorem stWf_stEmpty (k : Nat) : stWf (stEmpty k) = true := rfl

/-! Reads after writes -/

theorem stGen_stWrite (m : Store) (a k : Nat) (b : Byte) : stGen (stWrite m a b) k = stGen m k := by
  simp only [stGen, stWrite]

theorem stUnlisted_stWrite (m : Store) (a k : Nat) (b : Byte) :
    stUnlisted (stWrite m a b) k =
      if k = a then (if stGen m a = 0 then 0#8 else Config.unwritten (stGen m a) a) else stUnlisted m k := by
  by_cases h : k = a
  · subst h
    simp [stUnlisted, stWrite, mfind_merase, stGen]; rfl
  · have h' : ¬ a = k := fun e => h e.symm
    simp [stUnlisted, stWrite, mfind_merase, h, h', stGen]; rfl

/-- A read after a write to the same address gives the byte written; every other address reads as before. -/
theorem stRead_stWrite (m : Store) (a k : Nat) (b : Byte) (h : stWf m = true) :
    stRead (stWrite m a b) k = if k = a then b else stRead m k := by
  have hr := ((stWf_iff m).mp h).1
  by_cases hb : b = 0#8 ∧ stGen m a = 0
  · have hc : (stWrite m a b).cells = cellErase m.cells a := by simp [stWrite, hb]
    rw [stRead, hc, cellFind_cellErase hr, stUnlisted_stWrite]
    by_cases hk : k = a
    · simp [hk, hb]
    · simp [hk, stRead]
  · have hc : (stWrite m a b).cells = cellSet m.cells a b := by simp [stWrite, hb]
    rw [stRead, hc, cellFind_cellSet hr, stUnlisted_stWrite]
    by_cases hk : k = a
    · simp [hk]
    · simp [hk, stRead]

/-- A read after a masked write: the bytes written, and every other address as before. -/
theorem stRead_stWriteOpt (m : Store) (a k : Nat) (l : List (Option Byte)) (h : stWf m = true) :
    stRead (stWriteOpt m a l) k =
      if a ≤ k then (match l.getD (k - a) none with | some b => b | none => stRead m k) else stRead m k := by
  induction l generalizing m a with
  | nil => simp [stWriteOpt]
  | cons x r ih =>
    cases x with
    | none =>
      rw [stWriteOpt, ih m (a + 1) h]
      by_cases h1 : a + 1 ≤ k
      · have h2 : a ≤ k := by omega
        have h3 : k - a = (k - (a + 1)) + 1 := by omega
        simp [h1, h2, h3]
      · by_cases h2 : a = k
        · subst h2; simp <;> omega
        · have : ¬ a ≤ k := by omega
          simp [h1, this]
    | some b =>
      rw [stWriteOpt, ih _ (a + 1) (stWf_stWrite m a b h)]
      by_cases h1 : a + 1 ≤ k
      · have h2 : a ≤ k := by omega
        have h3 : k - a = (k - (a + 1)) + 1 := by omega
        have h4 : ¬ k = a := by omega
        simp [h1, h2, h3, stRead_stWrite _ _ _ _ h, h4]
      · by_cases h2 : a = k
        · subst h2; simp [stRead_stWrite _ _ _ _ h] <;> omega
        · have h5 : ¬ a ≤ k := by omega
          have h4 : ¬ k = a := fun e => h2 e.symm
          simp [h1, h5, stRead_stWrite _ _ _ _ h, h4]

/-- A write of n bytes is a masked write of all of them. -/
theorem stWriteN_eq_opt (m : Store) (a : Nat) (l : List Byte) : stWriteN m a l = stWriteOpt m a (l.map some) := by
  induction l generalizing m a with
  | nil => rfl
  | cons b r ih => simp [stWriteN, stWriteOpt, ih]

end Machine
end Sys2Proof
end

