-- ==== Sys2Proof/Tests/Slice0.lean ====
section
/-!
SUPPORT. Tests: words written out from the encodings of the spec, ill-formed commands refused, and for each statement a
state and operands that meet the hypotheses of its clauses. Expected values come from the rules cited.
-/

namespace Sys2Proof
namespace Tests

set_option Elab.async false
open Machine

/-! Instruction words, written out from R100, R147 and the opcode tables -/

/-- `add x10, x11, x12`: op 0x01, rd 10, rs1 11, rs2 12, fn 0 (Tables 7 to 9 of 03). -/
theorem test_word_add : decodeWord 0 0 0b000001_01010_01011_01100_00000000000 = some (.addSubLogic 0 0 .add 10 11 12) := by
  decide +kernel

/-- `remu`: op 0x02, fn 7. -/
theorem test_word_remu : decodeWord 0 0 0b000010_00001_00010_00011_00000000111 = some (.divRem 0 0 .remu 1 2 3) := by
  decide +kernel

/-- `srai x1, x2, 63`: op 0x09, imm16[7:6] 2; the value 3 there is illegal. -/
theorem test_word_srai : decodeWord 0 0 0b001001_00001_00010_00000000_10_111111 = some (.shiftImm 0 0 .sra 1 2 63)
    ∧ decodeWord 0 0 0b001001_00001_00010_00000000_11_111111 = none := by decide +kernel

/-- The worked word of 03: `ld x5, 0x40(x6)`. -/
theorem test_word_ld : decodeWord 3 1 0x4CA60040 = some (.load 3 1 .ld 5 6 none 0x40) := by decide +kernel

/-- `sh x7, -1(x8)` through seg3: op 0x19, S 1, SEG 3, imm12 0xFFF. -/
theorem test_word_sh : decodeWord 0 0 0b011001_00111_01000_1_011_111111111111 = some (.store 0 0 .h 7 8 (some 3) 0xFFF) := by
  decide +kernel

/-- `amocas.d x3, (x4), x6` through seg5: op 0x1C, S 1, SEG 5, SZ 3, fn 9; SZ 1 is illegal. -/
theorem test_word_amocas : decodeWord 0 0 0b011100_00011_00100_00110_1_101_11_01001 = some (.amocas 0 0 true 3 4 6 (some 5))
    ∧ decodeWord 0 0 0b011100_00011_00100_00110_1_101_01_01001 = none := by decide +kernel

/-- `rcinval x4, x6`: op 0x1D, rd field 3; rd field 4 is illegal. -/
theorem test_word_rcinval : decodeWord 0 0 0b011101_00011_00100_00110_0_000_00_00000 = some (.rcinval 0 0 4 6 none)
    ∧ decodeWord 0 0 0b011101_00100_00100_00110_0_000_00_00000 = none := by decide +kernel

/-- `macm.h x10, x11, 1, 1`, signed, adding (worked example of 03): op 0x1E, SZ 1, sx 1, sy 1. -/
theorem test_word_macm : decodeWord 0 0 0b011110_01010_01011_01_0_0_000001_000001 = some (.macm 0 0 .h false false 10 11 1 1) := by
  decide +kernel

/-- `bltu x1, x2, -2`: op 0x24. -/
theorem test_word_bltu : decodeWord 0 0 0b100100_00001_00010_1111111111111110 = some (.branch 0 0 .bltu 1 2 0xFFFE) := by
  decide +kernel

/-- `call -1`: op 0x27. -/
theorem test_word_call : decodeWord 0 0 0b100111_11111111111111111111111111 = some (.call 0 0 0x3FFFFFF) := by decide +kernel

/-- `callr x1, x2` (op 0x28, fn 1); rs2 must be zero. -/
theorem test_word_callr : decodeWord 0 0 0b101000_00001_00010_00000_00000000001 = some (.callr 0 0 1 2)
    ∧ decodeWord 0 0 0b101000_00001_00010_00001_00000000001 = none := by decide +kernel

/-- `loopi 0, 1024, 1` (worked example of 03): op 0x2B, fn 1, count 1,024, LEN 0. -/
theorem test_word_loopi : decodeWord 0 0 0b101011_0_01_10000000000_000000000000 = some (.loopi 0 0 0 1024 0) := by decide +kernel

/-- `segnarrow 5, X R` (op 0x30): mask X, W, R in rd [23:21]. -/
theorem test_word_segnarrow : decodeWord 0 0 0b110000_00_101_00001_00010_101_00000001 = some (.segnarrow 0 0 5 0b101 1 2) := by
  decide +kernel

/-- `csrs x1, x2, 0x0D2` is a write of TL_TGLIVE's upper half (R166). -/
theorem test_word_csr : decodeWord 0 0 0b111000_00001_00010_0010_000011010010 = some (.tgliveWrite 0 0 .csrs 1 2 true)
    ∧ decodeWord 0 0 0b111000_00001_00010_0001_000000000000 = some (.csrw 0 0 1 2 0) := by decide +kernel

/-- `scall 6`: op 0x39, fn 13, n in rd [23:21]. -/
theorem test_word_scall : decodeWord 0 0 0b111001_00110_00000_00000_00000001101 = some (.scall 0 0 6) := by decide +kernel

/-- The worked words of 05 and 06: `vfmacc v3, v1, v2`; `vle v1, (x10)` through seg3; `vamoadd v8, v4, v9` through seg5. -/
theorem test_word_lane : decodeWord 0 0 0xF0304223 = some (.vfpOp 0 0 .macc 3 1 (.vv 2) false)
    ∧ decodeWord 0 0 0xF4155800 = some (.vload 0 0 1 10 (some 3) false .unit)
    ∧ decodeWord 0 0 0xFC810968 = some (.vamo 0 0 .add 8 4 9 5 false) := by decide +kernel

/-- `vshape x1, x2, 16-bit, alt, mz` (op 0x3E, fn 0); ALT with SEW 0 is illegal (R148). -/
theorem test_word_vshape : decodeWord 0 0 0b111110_00001_00010_000000_0000_01_1_1_00 = some (.vshape 0 0 1 2 1 true true)
    ∧ decodeWord 0 0 0b111110_00001_00010_000000_0000_00_1_0_00 = none := by decide +kernel

/-- Illegal words: all zero; `vmerge` with m = 0; an unassigned major opcode (R101, R148). -/
theorem test_word_illegal : decodeWord 0 0 0 = none ∧ decodeWord 0 0 0b111100_000011_000001_000010_0_0010101 = none
    ∧ decodeWord 0 0 0b101010_00000000000000000000000000 = none := by decide +kernel

/-! Ill-formed commands -/

def badErr : List SymErr := [{ sector := 0, sym := 3, val := 0 }]
def twice : List SymErr := [{ sector := 0, sym := 3, val := 1 }, { sector := 0, sym := 3, val := 2 }]

theorem test_illformed_words : ([.csrw 0 0 1 2 0x0D1, .csrs 0 0 1 2 0x0D2, .csrc 0 0 1 2 0x0D1, .vshape 0 0 1 2 0 true false,
    .vfdivVfsqrt 0 0 true 1 2 3 false, .illegalWord 0 0 0x4CA60040] : List Instr).all (fun i => !wellFormed i) = true := by
  decide +kernel

theorem test_illformed_errors : ([.stackCacheRequest 0 (.read 0) badErr, .patrolRead 0 0 twice, .transactionReceive 0 badErr,
    .messageReceive twice, .updatePut 0 0 badErr, .ueReloadDone 0 0 twice, .bar2Read (.bar2 0) 4 badErr, .bar2Write 0 [1#8] twice,
    .ringFetchDone 0 [] badErr, .copy 0 0 twice, .serviceDelivery 0 badErr, .qfPost 0 0 0 0 twice, .amendFullLoad none true badErr,
    .amendAmendment none true twice, .svcGenerate 0 badErr, .svcRegister 0 twice] : List Instr).all (fun i => !wellFormed i) = true := by
  decide +kernel

theorem test_illformed_lengths : ([.tempSample 0 [none], .flitReceive 0 [0#8], .configReady ⟨3, 1, false⟩, .configReady ⟨16, 7, true⟩,
    .bar2Read (.bar4 65535) 2 [],
    .bar2Read (.bar2 0) 0 [], .bar2Write 0 [] [], .spdmChallenge .meter 0x13 0 [], .spdmGetMeasurements .meter 0x13 1 true [],
    .spdmGetMeasurements .meter 0x13 1 false [0#8]] : List Instr).all (fun i => !wellFormed i) = true := by decide +kernel

/-! A small module: tile 0 in T0 runs context 0 at supervisor level from its own tile-store window, seg0 with R, W, X, seg1,
seg2, seg4 to seg7 over the same window, seg3 over the local store -/

/-- A segment register: base and X, W, R. -/
def sega (base : Nat) : Word := BitVec.ofNat 64 (base + 7 * 2 ^ 60)
def win : Nat := 0x10000000000
def segs : Vector Word 8 := (Vector.replicate 8 (sega win)).set 3 (sega 0)
def tCtx : Ctx := { Ctx.reset with run := .running, sup := true, sega := segs, segl := Vector.replicate 8 0x40000, pc := 0x100
                                   vbase := 0x1000, e := Vector.replicate 8 (BitVec.ofNat 64 (2 ^ 63 + 2 ^ 62 + 0x2000)) }
def tTile (C : Ctx) : Tile := { Tile.reset with ctx := Tile.reset.ctx.set 0 C, tstate := .t0, lsBytes := 0x40000, vregs := 32 }
def mk (T : Tile) : State := { State.reset with tiles := [(0, T)] }
/-- The module whose context 0 is C. -/
def mkC (C : Ctx) : State := mk (tTile C)
def s0 : State := mkC tCtx
/-- The context with registers set. -/
def rg (l : List (Reg × Word)) : Ctx := l.foldl (fun C p => xset C p.1 p.2) tCtx
/-- A context in group mode: threads 0 and 1 at 0x100, thread 2 at 0x200. -/
def gCtx : Ctx := { tCtx with tgctl := 1, tglive := 7, tgpath := 3, tpc := [(0, 0x100), (1, 0x100), (2, 0x200)] }
/-- A context in an entry, and one in a double-fault entry. -/
def eCtx : Ctx := { tCtx with entry := 1, epc := 0x400 }
def dCtx : Ctx := { tCtx with entry := 3, dpc := 0x800, dstatus := 3 }
/-- A context whose `fence.d` has issued; nothing is outstanding. -/
def fCtx : Ctx := { tCtx with fence := some { kind := 2, ranges := [] } }
/-- A context at user level. -/
def uCtx : Ctx := { tCtx with sup := false }
def qq : List Reg := [31, 30, 29]

/-! Hypotheses of the scalar statements -/

theorem test_hyp_EmptyQueueTicks : s0.pending = [] := by decide +kernel

/-- EmptyQueueTicks: no request of the host waits. -/
theorem test_hyp_quiet : s0.hx.waiting = [] := by decide +kernel

/-- RegisterInstructionsComplete, SystemInstructionsComplete, RangeOpsAccepted, CsrInstructions: a ready context, also for memory accesses:
no fence, and one whose work is done. -/
theorem test_hyp_ready : ready s0 0 0 qq = true ∧ ready s0 0 0 [] = true ∧ ready (mkC uCtx) 0 0 qq = true
    ∧ ready (mkC eCtx) 0 0 [] = true ∧ ready (mkC dCtx) 0 0 [] = true ∧ ready (mkC gCtx) 0 0 [31] = true
    ∧ readyMem s0 0 0 qq = true ∧ readyMem (mkC fCtx) 0 0 qq = true ∧ fenceClear s0 0 0 = true := by decide +kernel

/-- ArithmeticResults: bit 0 the lowest and bit 63 the highest one set. -/
theorem test_hyp_counts : (1 : Word).getLsbD 0 = true ∧ (0x8000000000000000 : Word).getLsbD 63 = true
    ∧ countOp .clz 1 = 63 ∧ countOp .ctz 0x8000000000000000 = 63 ∧ countOp .clz 0x8000000000000000 = 0 ∧ countOp .popc 7 = 3 := by
  decide +kernel

/-- ArithmeticResults: the corner quotients of Table 9 of 03. -/
theorem test_div_corners : divOp .div 0x8000000000000000 (BitVec.allOnes 64) = 0x8000000000000000
    ∧ divOp .rem 0x8000000000000000 (BitVec.allOnes 64) = 0 ∧ divOp .div 7 0 = BitVec.allOnes 64 ∧ divOp .remu 7 0 = 7
    ∧ divOp .div (-7) 2 = -3 ∧ divOp .rem (-7) 2 = -1 ∧ mulOp .mulhsu (-1) 2 = -1 := by decide +kernel

theorem test_hyp_ZeroRegister : (31 : Reg) ≠ 0 ∧ (0 : Reg) ≠ 31 := by decide

/-- CompletionMovesPc: no loop, a transfer, and a loop end inside an entry. -/
theorem test_hyp_CompletionMovesPc : inGroup tCtx = false ∧ tCtx.loads = [] ∧ tCtx.modeWrites = [] ∧ atLoopEnd tCtx = false
    ∧ exl eCtx = true := by decide +kernel

/-- LoopBackEdge: both loops end at 0x100 with counts 2 and 1; loop 0 alone; inside an entry. -/
theorem test_hyp_LoopBackEdge :
    let C := fun (a b : Word) => { tCtx with lpcount := #v[a, b], lpend := #v[0x100, 0x100], lpstart := #v[0x40, 0x80] }
    nextPc (C 2 2) 0x100 none = (0x80, C 2 1) ∧ nextPc (C 2 1) 0x100 none = (0x40, C 1 0)
    ∧ nextPc (C 1 1) 0x100 none = (0x104, C 0 0) ∧ nextPc (C 2 0) 0x100 none = (0x40, C 1 0)
    ∧ nextPc (C 1 0) 0x100 none = (0x104, C 0 0) ∧ nextPc (C 0 0) 0x100 none = (0x104, C 0 0)
    ∧ nextPc (C 2 2) 0xFC none = (0x100, C 2 2) ∧ exl (C 2 2) = false ∧ dfl (C 2 2) = false
    ∧ nextPc { C 2 2 with entry := 1 } 0x100 none = (0x104, { C 2 2 with entry := 1 }) := by decide +kernel

/-- TransfersComplete: a taken and an untaken branch, aligned targets, a stack with room and one with an entry. -/
theorem test_hyp_TransfersComplete : branchTaken .beq 0 0 = true ∧ branchTaken .bne 0 0 = false
    ∧ livelock tCtx (some 0) = false ∧ uniformPath tCtx = true ∧ (xget tCtx 5).toNat % 4 = 0 ∧ (rsPush tCtx 0x104).isSome = true
    ∧ rsTopVal { tCtx with rsCount := 1 } % 4 = 0 := by decide +kernel

/-- TransfersComplete: `bltu` backwards by two instructions goes to 0xF8. -/
theorem test_branch_back : answers (exec (.branch 0 0 .bltu 1 2 0xFFFE) (mkC (rg [(2, 1)]))) (fun s' => (getC s' 0 0).pc = 0xF8) :=
  ⟨_, rfl, by decide +kernel⟩

/-- ReturnStack: 15, 16 and 0 entries, RSTRAP set and clear. -/
theorem test_hyp_ReturnStack :
    let C := fun (n : Nat) (t : Bool) => { tCtx with rsCount := n, rsTop := 15, rstrap := t }
    (rsPush (C 15 true) 8).isSome = true ∧ (rsPush (C 16 true) 8).isNone = true ∧ (rsPush (C 16 false) 8).isSome = true
    ∧ (C 15 false).rsTop < 16 ∧ ready (mkC (C 16 true)) 0 0 [31, 30] = true ∧ ready (mkC (C 0 true)) 0 0 [31] = true
    ∧ uniformPath (C 16 true) = true ∧ csrRead (mkC (C 16 true)) 0 0 0 0x058 = some 0xF10 := by decide +kernel

/-- LoopAndStackInstructionsComplete: nothing active; each case of LOOP_NEST. -/
theorem test_hyp_LoopAndStack :
    let C := fun (a b : Word) (e : Word) => { tCtx with lpcount := #v[a, b], lpend := #v[e, e] }
    nestFault (C 0 0 0) 0 4096 = none ∧ (nestFault (C 0 1 0x200) 0 1).isSome = true ∧ (nestFault (C 1 0 0x200) 1 65).isSome = true
    ∧ nestFault (C 1 0 0x200) 1 64 = none ∧ (nestFault (C 1 0 0x100) 0 1).isSome = true ∧ inGroup (C 1 0 0) = false
    ∧ ready (mkC (C 1 0 0x100)) 0 0 [31] = true := by decide +kernel

/-- SegmentInstructions: narrowing to the very end of the old limit, and one byte beyond. -/
theorem test_hyp_SegmentInstructions : (0x3FFFF : Nat) + 1 ≤ wfld tCtx.segl[5] 47 0 ∧ wfld tCtx.segl[5] 47 0 < 0x40000 + 1
    ∧ uCtx.sup = false := by decide +kernel

/-- CsrInstructions: a listed CSR for all, one for supervisors, and a number that none has. -/
theorem test_hyp_CsrInstructions : (csrRead s0 0 0 0 0x058).isSome = true ∧ csrSupOnly 0x058 = false
    ∧ (csrRead s0 0 0 0 0x020).isSome = true ∧ csrRead s0 0 0 0 0xFFF = none ∧ (csrRead s0 0 0 0 0x0D1).isSome = true
    ∧ ((List.range 4096).any (fun n => csrSupOnly n && (csrRead s0 0 0 0 n).isSome)) = true
    ∧ ((List.range 4096).any (fun n => csrUserWrite n && !csrSupOnly n && (csrRead s0 0 0 0 n).isSome)) = true := by decide +kernel

/-- FaultEntry, NestedFaults: levels 0, 1 and 2 with nothing outstanding. -/
theorem test_hyp_entries : accessesOut (tTile tCtx) 0 = false ∧ tCtx.rfaults = [] ∧ tCtx.fence = none ∧ eCtx.fence = none ∧ exl tCtx = false ∧ dfl tCtx = false
    ∧ exl eCtx = true ∧ dfl eCtx = false ∧ dfl dCtx = true := by decide +kernel

/-- TrapAndScallEnter: an entry for all, one for supervisors, one not enabled. -/
theorem test_hyp_Scall : tCtx.e[7].toNat.testBit 63 = true ∧ tCtx.e[7].toNat.testBit 62 = true ∧ Ctx.reset.e[7].toNat.testBit 63 = false
    ∧ atLoopEnd tCtx = false ∧ uCtx.sup = false := by decide +kernel

/-- ReturnsRestore: levels 1 and 2, and user level. -/
theorem test_hyp_ReturnsRestore : eCtx.sup = true ∧ eCtx.elds = 0 ∧ eCtx.tgctl.toNat.testBit 1 = false ∧ dCtx.dlds = 0
    ∧ uCtx.sup = false ∧ dfl uCtx = false := by decide +kernel

/-- A load of register 7 whose bytes are here. -/
def ld1 : LoadEnt := { seq := 1, rd := 7, shadow := 0, kind := .load 4 true, pc := 0x80, seg := 1, waits := [], data := none, fault := none
                       pieces := [{ addr := win, n := 4, bytes := [some 0xFE#8, some 0xFF#8, some 0xFF#8, some 0xFF#8], code := 0, elem := 0 }] }
/-- SystemInstructionsComplete: an idle tile has nothing a fence waits for, and one with a store on its way has; DONE has reached 0. -/
theorem test_hyp_System : fenceDone (tTile tCtx) 0 0 0 = true ∧ fenceDone (mbCommit (tTile tCtx) (fun _ => true)) 0 1 0 = true
    ∧ fenceDone (mbCommit (tTile tCtx) (fun _ => true)) 0 2 0 = true ∧ fenceDone (mbCommit (tTile tCtx) (fun _ => true)) 0 3 0 = true
    ∧ mxReached tCtx 0 = true ∧ uniformPath tCtx = true
    ∧ (let T := { tTile tCtx with mb := [{ seq := 1, addr := 0x40, bytes := List.replicate 32 (some 3#8), hint := 0, cseq := 1, draining := false
                                           dzl := false, who := [{ ctx := 0, pc := 0x80, seg := 1, seq := 1, addr := 0x40, half := false }] }] }
       fenceDone (tTile { tCtx with loads := [ld1] }) 0 0 0 = false ∧ fenceDone T 0 1 0 = false ∧ fenceDone T 0 2 0 = false ∧ fenceDone T 0 3 0 = false ∧ T.det = false) := by
  decide +kernel

/-! Memory accesses -/

/-- LocalLoadCompletes, LocalStoreCompletes: the last doubleword and line inside the limit of seg3. -/
theorem test_hyp_LocalAccess : useSeg (some 3) 5 = 3 ∧ checkAccess s0 0 tCtx 3 1 (halves 0x3FFF8 8) = none
    ∧ checkAccess s0 0 tCtx 3 1 (halves 0x3FFF7 8) = none ∧ checkAccess s0 0 tCtx 3 2 [(0x3FFF8, 8)] = none
    ∧ checkAccess s0 0 tCtx 3 2 [(0x3FF80, 128)] = none ∧ lsPoisoned (tTile tCtx) 0x3FFF8 8 = false ∧ (tTile tCtx).mx = []
    ∧ stWf (tTile tCtx).store = true := by decide +kernel

/-- LoadAccepted, StoreAccepted: seg1 and seg2 over the tile's own window. -/
theorem test_hyp_Access : useSeg none 5 = 1 ∧ useSeg none 2 = 2 ∧ checkAccess s0 0 tCtx 1 1 (halves 0x3FFF8 8) = none
    ∧ checkAccess s0 0 tCtx 2 2 [(0, 8)] = none ∧ fabAddr s0 tCtx 1 0x3FFF8 % 8 = 0 ∧ pendingCount tCtx < 16
    ∧ outstanding (tTile tCtx) ≤ 224 ∧ (tTile tCtx).mb.length < 16 := by decide +kernel

/-- LocalAtomicCompletes. -/
theorem test_hyp_LocalAtomic : checkAccess s0 0 tCtx 3 3 [(0, 8)] = none ∧ (xget tCtx 5).toNat % 8 = 0
    ∧ lsPoisoned (tTile tCtx) 0 8 = false := by decide +kernel

/-- LocalAtomicCompletes: `amoadd.d` of 5 onto 7 leaves 12 and puts 7 into its shadow. -/
theorem test_amoadd : answers (exec (.amo 0 0 .add true 6 5 7 (some 3)) (mk { tTile (rg [(7, 5)]) with store := stWrite (stEmpty 18) 0 7#8 }))
    (fun s' => stRead (getT s' 0).store 0 = 12#8 ∧ (getC s' 0 0).loads.map (fun l => l.data) = [some 7]) := ⟨_, rfl, by decide +kernel⟩

/-- RangeOpsAccepted. -/
theorem test_hyp_RangeOps : segCheck tCtx 1 0 0x40000 1 = none ∧ segCheck tCtx 1 0 0x40000 2 = none ∧ (tTile tCtx).rangeQ.length < 4 := by
  decide +kernel

/-- MacmCompletes: 16-bit operands 3 and -2 in the two bank groups. -/
theorem test_hyp_Macm :
    let C := rg [(10, 0), (11, 0x20000)]
    let T := { tTile C with store := stWriteN (stEmpty 18) 0 [3#8, 0#8] }
    let T := { T with store := stWriteN T.store 0x20000 [0xFE#8, 0xFF#8] }
    checkAccess (mk T) 0 C 3 1 [(0, 2)] = none ∧ checkAccess (mk T) 0 C 3 1 [(0x20000, 2)] = none
    ∧ lsPoisoned T 0 2 = false ∧ lsPoisoned T 0x20000 2 = false
    ∧ (match exec (.macm 0 0 .h false false 10 11 1 1) (mk T) with
       | .next s' => (getC s' 0 0).acc.toInt == -6 && (xget (getC s' 0 0) 10 == 2) && (xget (getC s' 0 0) 11 == 0x20002)
       | _ => false) = true := by decide +kernel

/-- SegmentCheck: each outcome. -/
theorem test_hyp_SegmentCheck :
    segCheck { tCtx with sega := Vector.replicate 8 0 } 1 0 1 1 = some 0x03 ∧ segCheck tCtx 1 0x3FFFF 1 1 = none
    ∧ segCheck tCtx 1 0x3FFFF 2 1 = some 0x04 ∧ segCheck tCtx 1 (2 ^ 48) 0 1 = some 0x04
    ∧ segCheck { tCtx with stklow := 16 } 2 15 1 1 = some 0x05 ∧ segCheck { tCtx with stklow := 16 } 2 16 1 1 = none
    ∧ segCheck { tCtx with stklow := 16 } 1 15 1 1 = none
    ∧ (checkAccess s0 0 tCtx 1 1 (halves 0x3FFF9 8)).isSome = true ∧ (checkAccess s0 0 tCtx 1 2 (halves 0x40000 8)).isSome = true := by
  decide +kernel

/-! Hypotheses of the statements on groups, waits and events -/

/-- ThreadGroupInstructionsComplete: no group; one path of two; a path that holds every thread; a forward target. -/
theorem test_hyp_ThreadGroup : inGroup gCtx = true ∧ inGroup tCtx = false ∧ exl eCtx = true ∧ tCtx.tgctl.toNat.testBit 0 = false
    ∧ wfld tCtx.lpcount[1] 31 0 = 0 ∧ gCtx.tglive &&& ~~~gCtx.tgpath ≠ 0 ∧ (7 : BitVec 128) &&& ~~~7 = 0
    ∧ wfld gCtx.tgctl 39 16 = 0 ∧ gCtx.pc < 0x200 % 2 ^ 48 ∧ vregPending (tTile gCtx) 0 31 = false ∧ (31 : VReg).val < (tTile gCtx).vregs
    ∧ wfld gCtx.vstart 3 0 = 0 ∧ (xget gCtx 5).toNat % 4 = 0 := by decide +kernel

/-- ThreadGroupInstructionsComplete: `tgon` of 3 makes threads 0 to 2 live at the next instruction; `tgoff` of threads 0 and
1 leaves thread 2 running at 0x200; of all three it ends the group. -/
theorem test_tgon : answers (exec (.tgon 0 0 5) (mkC (rg [(5, 3)]))) (fun s' => (getC s' 0 0).tglive = 7 ∧ (getC s' 0 0).pc = 0x104
    ∧ threadPc (getC s' 0 0) 2 = 0x104 ∧ inGroup (getC s' 0 0) = true) := ⟨_, rfl, by decide +kernel⟩
theorem test_tgoff : answers (exec (.tgoff 0 0) (mkC gCtx)) (fun s' => (getC s' 0 0).pc = 0x200 ∧ (getC s' 0 0).tgpath = 4)
    ∧ answers (exec (.tgoff 0 0) (mkC { gCtx with tgpath := 7 })) (fun s' => (getC s' 0 0).pc = 0x104 ∧ inGroup (getC s' 0 0) = false) :=
  ⟨⟨_, rfl, by decide +kernel⟩, ⟨_, rfl, by decide +kernel⟩⟩

/-- GroupCompletion: some thread has not yielded, and all have. -/
theorem test_hyp_GroupCompletion : inGroup gCtx = true ∧ gCtx.tglive ≠ 0 ∧ gCtx.loads = []
    ∧ ((List.range 128).any (fun i => gCtx.tglive.getLsbD i && !gCtx.yielded.getLsbD i)) = true
    ∧ ((List.range 128).any (fun i => gCtx.tglive.getLsbD i && !(7 : BitVec 128).getLsbD i)) = false := by decide +kernel

/-- QueueWaits: the queue has delivered; it has not; a number above 4,095; a tile that is to leave; a limit that has passed. -/
theorem test_hyp_QueueWaits :
    let s1 := { s0 with qf := { s0.qf with queues := [(9, { Queue.reset with prod := 1 })] } }
    qwaitReady s1 (tTile tCtx) tCtx 9 = true ∧ qwaitReady s0 (tTile tCtx) tCtx 9 = false ∧ uniformPath tCtx = true
    ∧ ready (mk { tTile tCtx with chartLeave := true }) 0 0 qq = true
    ∧ (let s2 := mkC { tCtx with run := .inQwait 5 9 (some 0) }; (getC s2 0 0).run = .inQwait 5 9 (some 0) ∧ 0 ≤ s2.now ∧ (getC s2 0 0).pend = none) := by
  decide +kernel

/-- A response fault, a store, and its write with a status. -/
def rf1 : RespFault := { seq := 1, code := 0x11, pc := 0x80, addr := 0x123, seg := 1, access := 1, half := false, elem := none }
def by1 : StoreBy := { ctx := 0, pc := 0x80, seg := 1, seq := 1, addr := 0x44, half := true }
def wr1 (st : Nat) : WriteReq := { seq := 1, ord := 1, addr := 0x40, bytes := [], hint := 0, who := [by1], lane := none, txns := 1, status := some st }
/-- ContextEvents: the load answered, a response fault due, an interrupt enabled, a timer at zero, a write acknowledged and one failed. -/
theorem test_hyp_ContextEvents : (∀ p ∈ ld1.pieces, pieceDone p = true ∧ p.code = 0) ∧ ld1.kind ≠ .sched
    ∧ atBoundary (mkC { tCtx with rfaults := [rf1] }) 0 0 = true ∧ laneChecking (tTile tCtx) 0 = false
    ∧ takeable { tCtx with ien := 7, ipend := 2 } = some 1 ∧ accessesOut (tTile { tCtx with rfaults := [rf1] }) 0 = false
    ∧ (wr1 0).status = some 0 ∧ (wr1 0x11).who = [by1] ∧ cix 0 = 0 ∧ (tTile tCtx).tstate ≠ .t3 ∧ tCtx.fence = none
    ∧ (getC (mkC { tCtx with timerAt := 1 }) 0 0).timerAt ≠ 0 ∧ (getC { (mkC { tCtx with timerAt := 1 }) with now := 1 } 0 0).timerAt ≤ 1 ∧ (∀ d, (getC s0 0 d).pend = none) := by decide +kernel
theorem test_loadResponse : answers (exec (.loadResponse 0 0 0) (mkC { tCtx with loads := [ld1] })) (fun s' =>
    xget (getC s' 0 0) 7 = 0xFFFFFFFFFFFFFFFE) := ⟨_, rfl, by decide +kernel⟩

/-- IllegalWordsAndFetchFaults: a fetch that may not execute, one beyond the window, one from a control space, one from a
fenced tile store. -/
theorem test_hyp_FetchFaults :
    let at_ := fun (b : Nat) => { tCtx with sega := tCtx.sega.set 0 (sega b) }
    segCheck { tCtx with sega := tCtx.sega.set 0 0 } 0 0x100 4 0 = some 0x03 ∧ segCheck tCtx 0 0x40000 4 0 = some 0x04
    ∧ placeOf (mkC (at_ 0)) (segAddr (at_ 0) 0 0x100) = .hole ∧ placeOf (mkC (at_ 0x20000000000)) (segAddr (at_ 0x20000000000) 0 0x100) = .ctrl 0 0x100
    ∧ placeOf s0 (segAddr tCtx 0 0x100) = .window 0 0x100 ∧ fenced { s0 with lsFenced := 2 } 0 = true ∧ segCheck tCtx 0 0x100 4 0 = none
    ∧ canIssue s0 0 0 = true ∧ decodeWord 0 0 0 = none ∧ tCtx.fetchBad = none ∧ segAddr tCtx 0 tCtx.pc = win + 0x100
    ∧ (let C := { tCtx with fetchBad := some (win + 0x100, 0x10) }; fetchFault (mkC C) C = none ∧ canIssue (mkC C) 0 0 = true) := by decide +kernel

/-! Lane engine -/

/-- An entry of the lane engine: SEW 64, VL 2, first group next. -/
def le (i : Instr) (groups : Nat) : LaneEnt :=
  { seq := 1, ctx := 0, ins := i, pc := 0x80, sew := 3, alt := false, mz := true, vl := 2, rnd := 0, tg := false, path := 0, s1 := 5, s2 := 8
    first := 0, next := 0, groups := groups, pieces := [], lp0 := 0, lp1 := 0, tpc0 := [], yielded0 := 0, spin0 := 0, stopped := false, fault := none }
/-- The tile with that entry, v1 holding 7 and 9. -/
def lt (e : LaneEnt) : Tile := { tTile tCtx with lane := [e], vr := stWriteN (stWriteN (stEmpty 16) 1024 [7#8]) 1032 [9#8] }

/-- LaneInstructionsIssue: empty queue, registers of the context, VSTART 0, a configuration that allows them. -/
theorem test_hyp_LaneIssue : vRegBad (tTile tCtx) (.vintOp 0 0 .add 31 1 (.vv 2) true) = false
    ∧ vConfigBad (tTile tCtx) tCtx (.vintOp 0 0 .add 31 1 (.vv 2) true) = false ∧ laneHeld (tTile tCtx) 0 (.vid 0 0 1 false) = false
    ∧ vConfigBad (tTile tCtx) tCtx (.vdot 0 0 .ee 31 1 2 false) = true
    ∧ vConfigBad (tTile tCtx) { tCtx with vcfg := 2 } (.vdot 0 0 .dot4 31 1 2 false) = false
    ∧ vConfigBad (tTile tCtx) { tCtx with vcfg := 2 } (.vwidenMul 0 0 .mul 30 1 2 false) = false
    ∧ vConfigBad (tTile tCtx) tCtx (.vreduceFp 0 0 .sum 31 1 false) = false ∧ vConfigBad (tTile tCtx) tCtx (.vamo 0 0 .cas 31 1 2 3 false) = false
    ∧ vConfigBad (tTile tCtx) tCtx (.vmacm 0 0 true 31 5 6 false) = false
    ∧ vConfigBad (tTile tCtx) tCtx (.vrgather 0 0 31 1 2 false) = false ∧ vConfigBad (tTile tCtx) tCtx (.vfcvt 0 0 true 31 1 false) = false
    ∧ vConfigBad (tTile tCtx) tCtx (.vload 0 0 31 5 none false (.indexed 2)) = false ∧ (tTile tCtx).lane.length < 8 ∧ (xget tCtx 5).toNat % 128 = 0 := by
  decide +kernel

/-- LaneElementResults: an add, a compare and a widening multiply whose group may start, and what the add writes (R131). -/
theorem test_hyp_LaneElements :
    let a := le (.vintOp 0 0 .add 3 1 (.vx 5) false) 1
    let p := le (.vcompare 0 0 .slt 3 1 (.vx 5) false) 1
    let w := { le (.vwidenMul 0 0 .mulu 4 1 1 false) 1 with sew := 2 }
    laneReady (lt a) 0 a = true ∧ laneReady (lt p) 0 p = true ∧ laneReady (lt w) 0 w = true ∧ stWf (lt a).vr = true
    ∧ inBody a 1 = true ∧ vActive (lt a) a 1 = true ∧ inBody a 2 = false ∧ vElem (lt a) a 0 = some (12, 0, false)
    ∧ (match exec (.laneGroup 0 0) (mk (lt a)) with
       | .next s' => vGet (getT s' 0) a 3 0 == 12 && vGet (getT s' 0) a 3 1 == 14 && vGet (getT s' 0) a 3 2 == 0
       | _ => false) = true := by decide +kernel

/-- LaneWholeResults: the last group of a reduction gives 7 + 9, of `vmv.x.s` the element 7; the finish writes rd (R134, R127). -/
theorem test_hyp_LaneWhole :
    let r := le (.vreduceInt 0 0 .sum 3 1 false) 1
    let x := { le (.vmvXS 0 0 6 1) 1 with next := 1 }
    laneReady (lt r) 0 r = true ∧ r.groups = r.next + 1 ∧ r.vl ≠ 0 ∧ x.groups ≤ x.next ∧ tCtx.lastLane ≠ some x.seq ∧ tCtx.pend = none
    ∧ (bodyElems r (vActive (lt r) r)) = [0, 1]
    ∧ (match exec (.laneGroup 0 0) (mk (lt r)) with | .next s' => vGet (getT s' 0) r 3 0 == 16 | _ => false) = true
    ∧ (match exec (.laneFinish 0 0) (mk (lt x)) with | .next s' => xget (getC s' 0 0) 6 == 5 && (getT s' 0).lane.isEmpty | _ => false) = true
    ∧ (∀ i ∈ [Instr.vmvXS 0 0 6 1, .vmvSX 0 0 3 5, .vreduceFp 0 0 .max 3 1 false, .vrgather 0 0 3 1 2 false, .vslideup 0 0 3 1 5 false,
        .vslidedown 0 0 3 1 5 false, .vcompress 0 0 3 1], laneReady (lt (le i 1)) 0 (le i 1) = true) := by decide +kernel

/-- LaneMemory: a unit-stride load and store through seg3 at offset 0x10; a load from elsewhere whose elements have arrived. -/
theorem test_hyp_LaneMemory :
    let a := { le (.vload 0 0 3 5 (some 3) false .unit) 1 with s1 := 0x10 }
    let b := { le (.vstore 0 0 1 5 (some 3) false .unit) 1 with s1 := 0x10 }
    let p : Piece := { addr := win, n := 8, bytes := List.replicate 8 (some 1#8), code := 0, elem := 0 }
    laneReady (lt a) 0 a = true ∧ laneReady (lt b) 0 b = true ∧ laneSeg a.ins = 3 ∧ groupActive (lt a) a 0 = [0, 1]
    ∧ vCheck (mk (lt a)) 0 tCtx a [0, 1] = none ∧ vCheck (mk (lt b)) 0 tCtx b [0, 1] = none ∧ lsPoisoned (lt a) 0x18 8 = false
    ∧ pieceDone p = true ∧ ([p].map (·.elem)).Nodup ∧ stWf (lt a).store = true
    ∧ (match exec (.laneGroup 0 0) (mk (lt b)) with
       | .next s' => stRead (getT s' 0).store 0x10 == 7#8 && stRead (getT s' 0).store 0x18 == 9#8
       | _ => false) = true := by decide +kernel

/-! Matrix array -/

/-- INT8 by INT8, M = N = K = 1, record enabled (R198). -/
def mxd : List Byte :=
  [10, 10, 0, 0x80, 1, 0, 1, 0, 1, 0, 0, 0, 0, 0, 0, 0,  0, 0x10, 0, 0, 0, 0, 0, 0, 0, 0x40, 0, 0, 0, 0x80, 0, 0,
   0x40, 0, 0, 0, 0, 0, 0, 0, 0, 0, 0, 0, 0, 0x90, 0, 0,  255, 255, 255, 255, 255, 255, 255, 255, 255, 255, 255, 255, 0, 0, 0, 0]
def mxe (issued : Option Nat) (pass row : Nat) : MxEnt :=
  { ctx := 0, seq := 1, desc := mxd, base := 0, issued := issued, s0 := 0, pass := pass, row := row, lfsr := [], saturated := 0
    flushed := 0, nans := 0, poison := false, spoil := false, hidden := [] }
def mt (l : List MxEnt) : Tile := { tTile tCtx with mx := l, store := stWriteN (stEmpty 18) 0 mxd }

/-- MatrixQueue: accepted; rejected for a reserved format; a head that may issue alone and after another; a pass to start. -/
theorem test_hyp_MatrixQueue : mxCheck (mt []) tCtx false mxd = none ∧ mxCheck (mt []) tCtx false (11#8 :: mxd.drop 1) = some (2, 0, 0)
    ∧ checkAccess (mk (mt [])) 0 tCtx 3 1 [(0, 64)] = none ∧ lsPoisoned (mt []) 0 64 = false ∧ mxHead (mt [mxe none 0 0]) = some (mxe none 0 0)
    ∧ headWait (mt [mxe none 0 0]) = 0
    ∧ ((mt [mxe (some 3) 0 0]).mx.filter (fun m => m.issued.isSome)).getLast? = some (mxe (some 3) 0 0)
    ∧ mxNext (mt [mxe (some 3) 0 0]) = some (mxe (some 3) 0 0) ∧ (mt [mxe none 0 0]).tstate = .t0 ∧ (mt []).mx.length < 16
    ∧ ((mt [mxe (some 3) 0 0]).mx.map (fun m => (m.ctx, m.seq))).Nodup := by
  decide +kernel

/-- MatrixResults: a row to leave, and a descriptor all of whose rows have left. -/
theorem test_hyp_MatrixResults :
    (mt [mxe (some 3) 1 0]).mx.find? (fun m => m.issued.isSome && decide (m.row < m.pass * (mxDesc m.desc).m)) = some (mxe (some 3) 1 0)
    ∧ (mxDesc mxd).sr = false ∧ mxP (mxDesc mxd) * (mxDesc mxd).m ≤ (mxe (some 3) 1 1).row ∧ stWf (mt []).store = true
    ∧ mxColActive (mxDesc mxd) 0 0 = true := by decide +kernel

set_option maxRecDepth 100000 in
/-- MatrixQueue: the weight tile at 0x4000 (R205) is in the active buffer from the start of the pass (R195). -/
theorem test_mx_weights :
    (match exec (.mxPassStart 0) (mk { mt [mxe (some 3) 0 0] with store := stWrite (mt []).store 0x4000 0xFE#8 }) with
     | .next s' => (getT s' 0).mxActive.map (fun x => (x.pass, stRead x.w 0)) == [(0, 0xFE#8)]
     | _ => false) = true := by decide +kernel

/-- MatrixResults: 3 times -2 (the activation at 0x1000, R204; the weight in the buffer of the pass, whatever is at 0x4000 by
now, R195) leaves -6 in C. -/
theorem test_mx_product :
    let b : MxTile := { ctx := 0, seq := 1, pass := 0, w := stWrite (stEmpty 13) 0 0xFE#8 }
    let st := stWriteN (stWriteN (mt []).store 0x1000 [3#8]) 0x4000 [1#8]
    (match exec (.mxRowExit 0) (mk { mt [mxe (some 3) 1 0] with store := st, mxActive := [b] }) with
     | .next s' => stReadLE (getT s' 0).store 0x8000 4 == 0xFFFFFFFA
     | _ => false) = true := by decide +kernel

/-! A Chart: module 5, region 0 homed on die C0, one constellation of tiles 0 to 3 with queue 9, all enables set; L0 and HX reach C0
by their bridges (route bytes 32·16 and 32·31, R51) -/

def cst : Constel := { id := 1, flags := 3, minTiles := 1, lsSteps := 4, stepTol := 0, tiles := 15, retired := 0, regions := 1, copies := []
                       queues := [{ queue := 9, flags := 0, reserve := 8, max := 16, watchdog := 1000 }]
                       env := { capW := 100, topOp := 0, t2Idle := 50 } }
def cht : Chart := { serial := 1, moduleId := 5, constCount := 1, lsSteps := 4, sweepTicks := 100, quiesceTicks := 100, enables := 31, debugMax := [2, 2]
                     interleave := [(1, 1)], route := List.replicate 512 0 ++ [3] ++ List.replicate 479 0 ++ [2], ports := [{ neighbour := 6, nport := 0, minWidth := 2, flags := 1 }, { neighbour := 7, nport := 0, minWidth := 2, flags := 1 }]
                     routes := [(7, (1, 255))], ruleVersion := 1, channels := [], meterBytes := [], queues := [], env := { capW := 2000, topOp := 0, t2Idle := 0 }
                     consts := [cst] }
/-- A module in service under that Chart. -/
def up : State := { s0 with chart := some cht, now := 10 ^ 9, su := { s0.su with auxGood := true, mainGood := true, mainOk := true, perst := false, stage := 9, rtOk := true }
                            hx := { s0.hx with ready := true, health := 1, lstate := .l0, width := 16, maxWidth := 16 }
                            pw := { s0.pw with mstate := 0 }
                            wakes := (List.range 32).map (fun i => (i, { WakeSt.reset with wkState := 2, hbMark := 10 ^ 9 })) }

/-! Hypotheses of the statements on the memory hierarchy -/

def mbe (cseq : Nat) (dr : Bool) : MBEnt :=
  { seq := 1, addr := 0x40, bytes := List.replicate 32 (some 3#8), hint := 0, cseq := cseq, draining := dr, dzl := false, who := [] }
def rdq (a : Option (List Byte × Bool × Nat)) : ReadReq :=
  { seq := 1, owner := .prefetch true, addr := 0x40, n := 32, hint := 0, w := false, atomic := none, l1d := false, l1i := false, tc := true
    answer := a, stale := false, elem := none }
def rop (st : Bool) : RangeOp := { ctx := 0, kind := 2, seg3 := false, addr := 0x40, len := 1, waits := [], started := st }

/-- MergeBufferAndCaches: an open entry, a committed one, a draining one; an answered read, one crossed by an invalidation, a
failed one; a fetch not yet made; range operations waiting, done and still waiting for a write. -/
theorem test_hyp_MergeBuffer :
    let B := fun (e : MBEnt) => { tTile tCtx with mb := [e] }
    (mbe 0 false).cseq = 0 ∧ ((B (mbe 0 false)).mb.map (·.seq)).Nodup ∧ firstCommitted (B (mbe 2 false)) (fun x => !x.draining) = some (mbe 2 false)
    ∧ firstCommitted (B (mbe 2 true)) (fun x => x.draining) = some (mbe 2 true) ∧ outstanding (B (mbe 2 false)) < 256
    ∧ behindAtomic (B (mbe 2 false)) (mbe 2 false) = false ∧ ((B (mbe 0 false)).mb.take 0).all (fun y => y.cseq != 0 || !mbShare (mbe 0 false) y) = true
    ∧ tcSets (tTile tCtx) ≠ 0
    ∧ (let C := { tCtx with sega := tCtx.sega.set 0 (sega 0) }
       let a := segAddr C 0 C.pc
       codePending (tTile C) (a / 32 * 32) 32 = false ∧ cacheable a = true ∧ cacheLook (tTile C).l1i 64 (a / 32) = none
       ∧ cacheLook (tTile C).tc (tcSets (tTile C)) (a / 32) = none ∧ (tTile C).reads = [] ∧ (tTile C).det = false ∧ (tTile C).l1i = []
       ∧ (let m := [(a / 128 % 2048, [{ line := a / 128, data := List.replicate 4 (some (List.replicate 32 7#8)), poison := List.replicate 4 false }])]
          cacheLook m 2048 (a / 32) = some (List.replicate 32 7#8, false) ∧ (∀ p ∈ m, ∀ l ∈ p.2, l.data.length = 4 ∧ l.poison.length = 4)))
    ∧ cacheable (segAddr tCtx 0 tCtx.pc) = false
    ∧ (rop true).waits.any (rangeOut s0 0 0x40 1) = false ∧ (rop true).kind ≠ 1 ∧ (rop true).seg3 = false ∧ (rop true).len ≠ 0 := by decide +kernel

/-- MergeBufferAndCaches: what an answered read leaves in the tile cache, and not where it was crossed. -/
theorem test_cacheFill :
    let r := rdq (some (List.replicate 32 7#8, false, 0))
    let look := fun (r : ReadReq) => match exec (.cacheFill 0 (.req 0)) (mk { tTile tCtx with reads := [r] }) with
      | .next s' => cacheLook (getT s' 0).tc (tcSets (getT s' 0)) 2
      | _ => none
    look r = some (List.replicate 32 7#8, false) ∧ look { r with stale := true } = none := by decide +kernel

/-- HomeAccess: a read of a sector and a write of one in the region of C0. -/
theorem test_hyp_Home :
    let w := { wr1 0 with status := none, bytes := List.replicate 32 (some 9#8) }
    let s1 := { up with tiles := [(0, { tTile tCtx with reads := [rdq none], writes := [w] })] }
    placeOf s1 0x40 = .mem 0 0x40 ∧ cohStatus s1 0x40 32 = 0 ∧ sentBy s1 (.read 0 1) = false ∧ mustWait s1 0 1 0x40 = false
    ∧ requestBlocked s1 0 0x40 = none ∧ isFabric 0x40 = false ∧ s1.mpoison = [] ∧ throttle s1 0 = 0 ∧ sentBy s1 (.write 0 1) = false
    ∧ 0x40 / 128 = (0x40 + 32 - 1) / 128 ∧ w.bytes.all Option.isSome = true ∧ w.addr % 32 = 0
    ∧ (match exec (.stackCacheRequest 0 (.write 0) []) s1 with
       | .next s' => stRead s'.mem 0x40 == 9#8 && stRead s'.mem 0x5F == 9#8 && stRead s'.mem 0x60 == 0#8
       | _ => false) = true := by decide +kernel

/-- StackController: a due patrol with the stack on; each throttle; readings at the limits 82, 85, 100 and 105. -/
theorem test_hyp_StackController : wfld (getD up 0).dcScrub 20 0 ≠ 0
    ∧ (getD up 0).patrolMark + wfld (getD up 0).dcScrub 20 0 ≤ up.now ∧ stackOn up 0 = true ∧ tokensFor up 0 4 = true
    ∧ throttle { up with cdies := [(0, { CDieSt.reset with dcTherm := 2 })] } 0 = 1
    ∧ throttle { up with cdies := [(0, { CDieSt.reset with dcTherm := 4 })] } 0 = 2 ∧ fenceCause up 0 = 0 := by decide +kernel
theorem test_temperature :
    let t := fun (v : BitVec 8) => match exec (.tempSample 0 (List.replicate 10 (some v))) up with
      | .next s' => some (wfld (getD s' 0).dcTherm 0 0, wfld (getD s' 0).dcTherm 2 1, fenceCause s' 0)
      | _ => none
    t 81 = some (0, 0, 0) ∧ t 84 = some (0, 0, 0) ∧ t 85 = some (1, 0, 0) ∧ t 100 = some (1, 2, 0) ∧ (t 105).map (fun x => x.2.2) = some 1 := by
  decide +kernel

/-! Hypotheses of the statements on fabric and links -/

def tx (type dst : Nat) : Txn :=
  { type := type, dslots := 0, hint := 0, tag := 0, src := 6, dst := dst, addr := 0x40, len := 31, ttl := 15, census := 0, op := 0, status := 0
    poison := 0, operand := List.replicate 8 0#8, resv := false, data := [] }
/-- The module with port 0 as given and port 1 active. -/
def withPort (P : Port) : State :=
  { up with link := { up.link with ports := [(0, P), (1, { Port.reset with state := .active, reqCred := 4096, rspCred := 4096, lanes := 255 })] } }
def act : Port := { Port.reset with state := .active, lanes := 255, lanesGood := 255, width := 8, reqCred := 4096, rspCred := 4096 }

/-- FabricCommands. -/
theorem test_hyp_Fabric :
    let w := { wr1 0 with status := none }
    let s1 := { up with tiles := [(0, { tTile tCtx with writes := [w] })] }
    bridgeTo 0 2 = some 1 ∧ (8 * 0 + 2) ∉ up.bridgesDown
    ∧ destDie up 3 = some 3 ∧ oldOutstanding up 0 3 1 = false ∧ Arb.reset.mark.getD 0 0 < up.now ∧ Arb.reset.census.length = 8
    ∧ (packetOf s1 (.tile 0 (.write 0))).map (fun y => (y.die, y.router, y.dest, y.beats)) = some (0, 0, 0, 2)
    ∧ ((packetOf s1 (.tile 0 (.write 0))).map (fun y => (List.range 6).any (fun o => (arrivalAt s1 false y 0 0 o).any (fun a => a.1 < 8)))) = some true
    ∧ ({ RspArb.reset with waiting := [0, 0, 1, 0, 0, 0, 0, 0] } : RspArb).waiting.getD 2 0 = 1
    ∧ act.cmark.getD 3 0 < up.now ∧ act.reqQ = [] := by decide +kernel

/-- FabricCommands: input 0 with census 3 sends packets of 2 beats while its deficit covers them. -/
theorem test_arbiter :
    let A := { Arb.reset with census := [3, 0, 0, 0, 0, 0, 0, 0], queue := [(2, 3), (2, 3), (2, 3)] :: List.replicate 7 [] }
    (match exec (.arbiterRound ⟨false, 0, 0, 0⟩ []) { up with link := { up.link with arbs := [(arbKey 0 0 0, A)] } } with
     | .next s' => let B := mget s'.link.arbs Arb.reset (arbKey 0 0 0)
                   B.sent.getD 0 0 == 1 && B.deficit.getD 0 0 == 1 && (B.queue.getD 0 []).length == 2
     | _ => false) = true := by decide +kernel

/-- FlitsAndRetry: 15 and 16 periods; nothing to send; one request of one slot; good and bad flits; NAKs three and four in a row. -/
theorem test_hyp_Flits : (getP (withPort act) 0).state = .active ∧ act.periods < 16 ∧ act.resend = none ∧ act.slotQ = [] ∧ act.rspQ = []
    ∧ act.reqQ = [] ∧ txnLen (tx 1 5) ≤ act.reqCred ∧ txnLen (tx 1 5) ≤ 7 ∧ act.held.length < 512 ∧ act.deficit.length = 10
    ∧ txnLen (tx 1 5) ≤ ({ act with census := List.replicate 10 1 } : Port).census.getD 9 0 ∧ isResponse 1 = false ∧ isResponse 0x82 = true
    ∧ (getW (withPort act) 16).wkState.toNat.testBit 2 = false := by decide +kernel
theorem test_flit_good : (flitDecode []).2.2 = true ∧ leAt (flitDecode []).1 0 2 = act.rxNext ∧ act.rxNext < 4096 := by decide +kernel
/-- Five wrong bytes in one codeword are more than its 8 check bytes correct (R264). -/
theorem test_flit_bad : (flitDecode [1#8, 0#8, 1#8, 0#8, 1#8, 0#8, 1#8, 0#8, 1#8]).2.2 = false := by decide +kernel
theorem test_nak :
    let r := fun (n : Nat) => match exec (.nakReplay 0) (withPort { act with nak := some 3, nakFlit := 3, nakRun := n }) with
      | .next s' => some (getP s' 0).state
      | _ => none
    r 3 = some .active ∧ r 4 = some .retrain := by decide +kernel

/-- PortTraining: a capability block of generation 1 from NEIGHBOUR 6, port 0, all lanes good. -/
def cap : List Byte := [1, 1, 6, 0, 0, 0xFF]
theorem test_hyp_Training : (checkPartner (withPort act) 0 255 cap).toOption = some (255, 255) ∧ (checkPartner (withPort act) 0 0x0F cap).toOption = some (15, 15)
    ∧ (withPort act).now ≤ (withPort act).now + stepLimit 1 ∧ act.lanes.testBit 7 = true ∧ (0 : Nat) ∉ up.link.linkFenced := by decide +kernel

/-- LinkTransactions: a read for this module, one it does not support, a message; one to pass on; a response with its tag, in time and late; a message for
a queue that no section binds. -/
theorem test_hyp_LinkTxn :
    let msg := { tx 4 5 with dslots := 1, data := [List.replicate 32 0#8] }
    let P := fun (x : Txn) => { act with rxQ := [x] }
    let isReq := fun (y : Txn) => !isResponse y.type && y.dst == ownId up
    let e : TagEnt := { index := 0, owner := .write 0 1, dst := 6, sent := 0 }
    findRx (P (tx 1 5)) isReq = some (0, tx 1 5) ∧ (performTxn (withPort (P (tx 1 5))) 0 (tx 1 5) []).isSome = true
    ∧ unsupported up { tx 1 5 with len := 127 } = true ∧ unsupported up msg = false
    ∧ findRx (P (tx 1 7)) (fun y => y.dst != ownId up) = some (0, tx 1 7) ∧ mget cht.routes (255, 255) 7 = (1, 255)
    ∧ ((cht.ports[0]?).map (fun y => y.flags % 2)).getD 0 = 1 ∧ (getP (withPort act) 1).state = .active
    ∧ queuedSlots (getP (withPort act) 1).reqQ + txnLen (tx 1 7) ≤ (getP (withPort act) 1).reqCred
    ∧ findRx (P (tx 0x82 5)) (fun y => isResponse y.type && y.dst == ownId up) = some (0, tx 0x82 5) ∧ badResponse (tx 0x82 5) = false
    ∧ [e].find? (fun y => y.index == (tx 0x82 5).tag % 2048) = some e ∧ timedOut up 0 e = true ∧ timedOut up 0 { e with sent := 10 ^ 9 } = false
    ∧ fetchEnt up (msg.addr % 4096) = none := by decide +kernel

/-! Hypotheses of the statement on update engines -/

def put1 : Put := { src := .dma 9 0 0, addr := 0, table := 0, n := 1, scales := [], s := 0, data := [], poison := 0 }
theorem test_hyp_UpdateEngines :
    let s1 := { up with link := { up.link with engines := [(0, { Engine.reset with waiting := [put1], tabs := [(0, { UeTab.reset with loading := true })] })] } }
    ueWriter up .host = true ∧ ueWriter up (.tile 0) = true ∧ (ueTab (getE s1 0) 0).loading = true
    ∧ (match cohReadFrom s1 16 (wfld s1.link.ueDir 47 13 * 8192 + 128 * 0) 128 2 true [] with | some y => y.st == 0 && !y.pois.any id | none => false) = true
    ∧ (getW up 16).wkState.toNat.testBit 4 = false ∧ ([].take 0 : List Put).any (fun z => putsMeet Engine.reset put1 z) = false
    ∧ (judgePut up 0 put1 []).isSome = true ∧ (ueTab Engine.reset 0).valid = false ∧ (ueTab Engine.reset 0).loading = false ∧ 0 ∉ up.link.linkFenced := by decide +kernel

/-! Hypotheses of the statements on the host attachment -/

def hx (f : HxSt → HxSt) : State := { up with hx := f up.hx }

/-- HostRequests: not ready and ready; a read that no BAR0 takes; nothing waiting, and a write that waits for tokens; the last HX
register and the first mirror; a die that answers and one without power; a mirror read 25 ticks old; accesses within, across and
beyond the region; a window of the meter. -/
theorem test_hyp_HostRequests : s0.hx.ready = false ∧ up.hx.ready = true ∧ hostLive up = true
    ∧ (let b := { s0 with su := { s0.su with perst := false, mainOk := true } }; b.hx.ready = false ∧ b.su.hold = false ∧ b.su.perst = false ∧ b.su.mainOk = true)
    ∧ (2 : Nat) ≠ 4 ∧ 6 % 4 ≠ 0 ∧ up.hx.waiting = [] ∧ (0x1FFFFF8 : Nat) < 0x2000000 ∧ 0x2040000 % 8 = 0 ∧ mirrorPlace 0x2040000 = (0, 0x200000)
    ∧ (let w0 : HostWait := .write 0x40 [1#8] [] true
       let w1 : HostWait := .bar0 8 true
       let s1 := { up with cdies := [(0, { CDieSt.reset with dcTherm := 4 })], hx := { up.hx with waiting := [w0] } }
       let s2 := traffic s1
       hostLive s1 = true ∧ (hostPerform { s2 with hx := { s2.hx with waiting := [w0, w1] } } w0).isNone = true)
    ∧ up.hx.stopped = false ∧ dieAnswers up 0 0x200000 = true ∧ dieAnswers s0 0 0x200000 = false ∧ (10 ^ 9 - 25 : Nat) + 25 ≤ up.now
    ∧ (4 ≤ 512 ∧ 0x3FFFFFFC + 4 ≤ 0x40000000) ∧ ¬ (4 ≤ 512 ∧ 0x3FFFFFFD + 4 ≤ 0x40000000) ∧ ¬ (513 ≤ 512 ∧ 513 ≤ 0x40000000)
    ∧ (statusFrom up 31 0 1).1 = 0 ∧ (statusFrom { up with bridgesDown := [8 * 31 + 2] } 31 0 1).1 ≠ 0
    ∧ permit up 3 = true ∧ permit s0 3 = false ∧ (cohWriteB up 0 [1#8] 0 []).isSome = true
    ∧ (cohWriteB { up with cdies := [(0, { CDieSt.reset with dcTherm := 4 })] } 0 [1#8] 0 []).isNone = true
    ∧ (match cohReadFrom up 31 0 4 0 false [] with | some y => y.st == 0 && !y.pois.any id | none => false) = true := by decide +kernel

/-- HostRequests: BAR2 moves to slice 1; the class code of the function (R297). -/
theorem test_host_registers : (match exec (.registerWrite .host (.bar0 ⟨0x1000008, by decide⟩) true 0x40000000) up with
    | .next s' => s'.hx.slice == 1 | _ => false) = true ∧ cfgRead up .classCode = 0x120000 := by decide +kernel

/-- A descriptor of queue 9. -/
def dsc (b : List Byte) (ph : DPhase) : Desc :=
  { q := 9, idx := 0, bytes := b ++ List.replicate (256 - b.length) 0#8, slots := 1, phase := ph, status := 0, detail := 0, words := [], trOk := true
    trans := [], stamp := none, copy := CopySt.reset, consts := [], tiles := [], ends := [], delivered := none, recheck := false, guilty := false }
def tr1 : TransReq := { id := 3, q := 9, idx := 0, addr := 0x12345000, stale := false, invs := [] }
def inv1 : Inval := { itag := 2, pasid := none, base := 0, size := 0x1000, at_ := 0, waits := [] }

/-- HostTranslations: an answer of exactly one page; 31 and 32 invalidations; a limit that has passed; constants asked for; the
states of the link. -/
theorem test_hyp_HostTranslations :
    let s1 := { up with hx := { up.hx with treqs := [tr1], invals := [inv1], hreads := [(4, .consts 9 0 0)], cfg := { up.hx.cfg with ats := true, l0p := true, aspmL1 := true } }
                        qf := { up.qf with descs := [dsc [] .ready], queues := [(9, { Queue.reset with state := 2 })] } }
    s1.hx.treqs.find? (fun x => x.id == 3) = some tr1 ∧ getDesc s1 9 0 = some (dsc [] .ready) ∧ keptPage 0x12345000 0x12345000 0x1000 = some (0x12345000, 0x1000)
    ∧ overtaken tr1 0x12345000 0x1000 = false ∧ overtaken { tr1 with invs := [(0x12346000, 0x1000)] } 0x12200000 0x200000 = true
    ∧ keptPage 0x12345000 0x12200000 0x200000 = some (0x12200000, 0x200000) ∧ (List.replicate 31 inv1).length < 32 ∧ 32 ≤ (List.replicate 32 inv1).length
    ∧ s1.hx.invals.find? (fun x => x.itag == 2) = some inv1 ∧ inv1.at_ + s1.hx.invalLimit ≤ s1.now ∧ s1.hx.cfg.ats = true
    ∧ s1.hx.hreads.find? (fun x => x.1 == 4) = some (4, .consts 9 0 0) ∧ (dsc [] .ready).copy.stop = none ∧ (dsc [] .ready).phase ≠ .done
    ∧ dtype (dsc [2] .ready) = 2 ∧ constsOut { s1 with hx := { s1.hx with hreads := s1.hx.hreads.filter (fun x => x.1 != 4) } } 9 0 = false
    ∧ sending up (dsc [2] .ready) = false ∧ invalMet { s1 with qf := { s1.qf with descs := [dsc [1] .started] } } 9 0 = false ∧ (getQ s1 9).state ≠ 0 ∧ (getQ s1 9).state ≠ 5
    ∧ s1.hx.lstate = .l0 ∧ 8 < s1.hx.width ∧ s1.hx.lastTraffic + 1250 ≤ s1.now ∧ (hx (fun h => { h with d3hot := true })).hx.d3hot = true
    ∧ (hx (fun h => { h with lstate := .l0p })).hx.lstate = .l0p ∧ (hx (fun h => { h with lstate := .l1 })).hx.lstate = .l1
    ∧ s1.su.mainOk = true ∧ s1.su.perst = false ∧ (1 : BitVec 32) ≠ 0 := by decide +kernel

/-! Hypotheses of the statements on queues -/

/-- The module with queue 9 and descriptors as given, the Letterbox registered. -/
def wq (Q : Queue) (ds : List Desc) : State :=
  { up with qf := { up.qf with queues := [(9, Q)], descs := ds, lb := 0x100001, lbSize := 64 } }
def qs (n : Nat) : Queue := { Queue.reset with state := n }

/-- QueueCommands: a ring of 16 filled exactly and one beyond; a tail that moves back; each state; a bound and an unbound queue. -/
theorem test_hyp_QueueCommands :
    let Q := { qs 1 with tail := 4 }
    diff32 16 Q.head ≤ ringEntries Q ∧ diff32 Q.tail Q.head ≤ diff32 16 Q.head ∧ ringEntries Q < diff32 17 Q.head
    ∧ diff32 3 Q.head < diff32 Q.tail Q.head ∧ (fetchEnt (wq Q []) 9).isSome = true ∧ (fetchEnt (wq Q []) 8).isSome = false
    ∧ hostLive (wq Q []) = true ∧ hostLive s0 = false ∧ (wq Q []).hx.waiting = []
    ∧ tilePage (wq Q []) 9 3 = true ∧ tilePage (wq Q []) 9 4 = false ∧ wfld (qs 0).ring 3 0 ≤ 12 ∧ 12 < wfld (13 : Word) 3 0
    ∧ lbEnabled (wq Q []) = true ∧ lbEnabled up = false ∧ (qs 1).held = 0 ∧ faultedDesc (wq (qs 4) []) 9 = none
    ∧ faultedDesc (wq (qs 4) [dsc [] .faulted]) 9 = some (dsc [] .faulted) ∧ (dsc [] .faulted).recheck = false ∧ (dsc [] .ready).trOk = true
    ∧ boundEnt (wq Q []) 9 = some { queue := 9, flags := 0, reserve := 8, max := 16, watchdog := 1000 }
    ∧ 1000 ≤ wdCount (wq Q []) { qs 2 with wdRun := true, wdAcc := 1000 } ∧ (wq Q []).chart = some cht ∧ (wq Q []).qf.sweepMark + cht.sweepTicks ≤ (wq Q []).now
    ∧ (wq Q []).pw.mstate ≠ 2 ∧ (qs 2).head = (qs 2).target
    ∧ (∀ x ∈ [dsc [2] .started], x.q = 9 → x.phase = .started → dtype x ≠ 1) := by decide +kernel
theorem test_doorbell :
    let st := fun (T : BitVec 32) => match exec (.doorbell 9 T) (wq (qs 1) []) with | .next s' => some ((getQ s' 9).state, (getQ s' 9).tail) | _ => none
    st 16 = some (2, 16) ∧ st 17 = some (4, 0) := by decide +kernel

/-- COPY of 4 bytes within module memory from 0x80 to 0x100; LAUNCH on tiles 1 and 2; WAIT; SIGNAL of fence 3; SERVICE. -/
def copyD : List Byte := [1, 1] ++ List.replicate 30 0#8 ++ toLE 8 0x80 ++ toLE 8 0x100 ++ toLE 8 4
def launchD : List Byte := [2, 1] ++ List.replicate 38 0#8 ++ [8, 0, 1, 0, 0, 0, 0, 0] ++ List.replicate 160 0#8 ++ toLE 2 1 ++ toLE 2 2
def signalD : List Byte := [4, 1] ++ List.replicate 30 0#8 ++ toLE 8 3 ++ toLE 8 77

/-- Descriptors: a ring in module memory with one entry; each descriptor ready to start; one done; a COPY whose units have all
gone and one whose last bytes are here; a launch whose tiles have ended; a delivery ring with room; a post of one receipt. -/
theorem test_hyp_Descriptors :
    let Q := { qs 2 with target := 1, run := true, ring := 16 }
    let R := wq Q []
    let D := wq { qs 2 with dlv := 0x1000 } [{ dsc [5, 1] .started with delivered := none }]
    let x : CopyUnit := { u := 0, parts := [some ([1#8, 2#8, 3#8, 4#8], List.replicate 4 false)] }
    let C := { dsc copyD .started with copy := { CopySt.reset with units := [x], next := 1 } }
    mayFetch R 9 = true ∧ Q.head ≠ Q.target ∧ slotsFree R 9 1 = true ∧ (getDesc R 9 0).isNone = true
    ∧ (entryBytes R 9 1 [] []).map (·.1) = some (List.replicate 256 0#8) ∧ entriesNeeded (List.replicate 256 0#8) = 1 ∧ 1 ≤ diff32 Q.target Q.head
    ∧ leAt (List.replicate 256 0#8) 0 1 = 0
    ∧ (let H := { Q with asked := 1, ring := 3 * 2 ^ 60 }; ringLocal H = false ∧ H.asked ≠ H.head)
    ∧ (let P := { R with mpoison := [0] }; ringLocal Q = true ∧ 0 < headEntries P 9 ∧ (entryFault P 9 0).isSome = true)
    ∧ mayStart (wq (qs 2) [dsc signalD .ready]) 9 = some (dsc signalD .ready) ∧ dtype (dsc signalD .ready) = 4
    ∧ df (dsc signalD .ready) 0x20 2 = 3
    ∧ mayStart (wq (qs 2) [dsc launchD .ready]) 9 = some (dsc launchD .ready) ∧ dtype (dsc launchD .ready) = 2 ∧ scanOpen up = false
    ∧ df (dsc launchD .ready) 0x2E 2 = 0 ∧ constsRead (dsc launchD .ready) = true ∧ (dsc launchD .ready).copy.stop = none ∧ getDesc (wq (qs 2) [dsc copyD .done]) 9 0 = some (dsc copyD .done)
    ∧ dtype C = 1 ∧ dmaBlocked (wq (qs 2) [C]) C = false ∧ copyUnits C = 1 ∧ copyMode C = 0 ∧ dstSpace C = 0 ∧ C.copy.stop = none
    ∧ (unitDst C 0 [([1#8, 2#8, 3#8, 4#8], List.replicate 4 false)]).1 % 2 ^ 48 = 0x100 ∧ copyWaits (wq (qs 2) [C]) C 0x100 = false
    ∧ (match cohWriteFrom (wq (qs 2) [C]) (engineDie C) 0x100 [some 1#8, some 2#8, some 3#8, some 4#8] (List.replicate 4 false) 0 [] with | some y => y.1 == 0 | none => false) = true
    ∧ (D.qf.descs.find? (fun e => e.q == 9 && dtype e == 5 && e.phase == .started && e.delivered.isNone)).isSome = true
    ∧ wfld (getQ D 9).dlv 47 8 ≠ 0 ∧ diff32 (getQ D 9).prod (getQ D 9).cons < 2 ^ (wfld (getQ D 9).dlv 3 0 + 4)
    ∧ (match cohWriteBFrom D 31 0x1000 (slice (dsc [5, 1] .started).bytes 0 256) 0 [] with | some y => y.1 == 0 | none => false) = true
    ∧ tilePage D 9 0 = true ∧ (match cohReadFrom D 31 0 64 1 false [] with | some y => y.st == 0 && !y.pois.any id | none => false) = true := by decide +kernel
theorem test_hyp_Selected : selected { (wq (qs 2) []) with tiles := [(1, { Tile.reset with tstate := .t1 }), (2, { Tile.reset with tstate := .t1 })] } (dsc launchD .ready) ≠ []
    ∧ resident Tile.reset = false ∧ hostLive up = true ∧ hostLive s0 = false := by decide +kernel

/-- Descriptors: a COPY moves its bytes; a signal of 77 raises fence 3, and QF_FENCE_CLR alone lowers it. -/
theorem test_copy :
    let x : CopyUnit := { u := 0, parts := [some ([1#8, 2#8, 3#8, 4#8], List.replicate 4 false)] }
    (match exec (.copy 9 0 []) (wq (qs 2) [{ dsc copyD .started with copy := { CopySt.reset with units := [x], next := 1 } }]) with
     | .next s' => stReadN s'.mem 0x100 5 == [1#8, 2#8, 3#8, 4#8, 0#8]
     | _ => false) = true := by decide +kernel
theorem test_fence :
    let w := fun (v : BitVec 64) (s : State) => match exec (.fenceWrite 3 ⟨.host, v⟩) s with | .next s' => s' | _ => s
    getFence (w 5 (w 77 up)) 3 = 77 ∧ (match exec (.fenceClr ⟨.debug, 3⟩) (w 77 up) with | .next s' => getFence s' 3 == 0 | _ => false) = true := by decide +kernel

/-- Letterbox: enabled and disabled; a receipt for an enabled ring with room; a word and a block to post; a heartbeat due. -/
def rc1 : Rcpt := { q := 9, kind := 1, type := 1, status := 0, detail := 0, tag := 5, index := 0, words := [], raw := none, slots := 1, last := false, req := none }
theorem test_hyp_Letterbox :
    let s1 := { wq (qs 2) [] with qf := { (wq (qs 2) []).qf with receipts := [rc1], rring := (List.replicate 64 (0 : Word)).set 0 0x21010 } }
    hostLive s1 = true ∧ hostLive s0 = false ∧ anyEnabled s1 = true ∧ anyEnabled up = false ∧ s1.qf.receipts.findIdx? (fun z => queueRring s1 z.q == 0) = some 0 ∧ rc1.raw ≠ some []
    ∧ mayPost s1 = true ∧ rringEn s1 0 = true ∧ diff32 (s1.qf.rposts.getD 0 0) (s1.qf.rcons.getD 0 0) < rringEntries s1 0
    ∧ ({ qs 2 with dirty := true } : Queue).dirty = true ∧ lbEnabled s1 = true ∧ s1.qf.hbMark + 12500 ≤ s1.now ∧ lsAlive s1 = true := by decide +kernel


/-! Hypotheses of the statements on Chart and service runtime -/

/-- The AMEND of queue 0 with an image of n bytes in host memory. -/
def amendD (n : Nat) : Desc :=
  { dsc ([6, 1] ++ List.replicate 38 0#8 ++ toLE 4 n ++ [1]) .started with q := 0 }
def wa (n : Nat) : State := { up with qf := { up.qf with descs := [amendD n], queues := [(0, qs 2)] } }

/-- An amendment of constellation 1, without its signatures: its CONSTELLATION, QUEUE and ENVELOPE sections; the constellation
keeps its region and gives up tile 3. -/
def amendment : List Byte :=
  let dir := fun (type tag off len : Nat) => toLE 2 type ++ toLE 1 1 ++ toLE 1 tag ++ toLE 4 off ++ toLE 4 len ++ toLE 4 0
  let con := [1#8, 3#8] ++ toLE 2 1 ++ [0#8, 4#8, 0#8, 0#8] ++ List.replicate 8 0#8 ++ toLE 128 7 ++ toLE 128 0 ++ toLE 128 1
  let que := toLE 2 1 ++ List.replicate 14 0#8 ++ toLE 2 9 ++ toLE 2 0 ++ toLE 4 8 ++ toLE 4 16 ++ toLE 4 1250
  let env := toLE 2 100 ++ [0#8, 0#8] ++ toLE 4 125 ++ List.replicate 8 0#8
  toLE 4 0x4843584C ++ toLE 2 1 ++ toLE 2 1 ++ toLE 2 0 ++ [1#8, 1#8] ++ toLE 2 5 ++ toLE 2 3 ++ toLE 4 (896 + 59584) ++ toLE 4 896
    ++ toLE 8 2 ++ toLE 8 1 ++ List.replicate 216 0#8
    ++ dir 9 1 320 400 ++ dir 7 1 768 32 ++ dir 8 1 832 16 ++ List.replicate 16 0#8
    ++ con ++ List.replicate 48 0#8 ++ que ++ List.replicate 32 0#8 ++ env ++ List.replicate 48 0#8

/-- ChartCommands: that amendment passes steps 13 to 27; tile 3 leaves; one with a tile of no constellation's fails at R62. -/
theorem test_valid_amendment : amendment.length = 896 ∧ isAmendment amendment = true ∧ checkBody amendment (some cht) (fun _ => false) = none
    ∧ leavingTiles cht (amendedChart cht amendment) 1 = [3] ∧ checkBody amendment (some cht) (fun d => d == 0) = some (0x1B, 0, 336) := by
  decide +kernel

/-- ChartCommands: an AMEND whose read fails, one whose image is refused as full and as amendment, one that quiesces. -/
theorem test_hyp_ChartCommands :
    let am : List Byte := toLE 4 0x4843584C ++ [1, 0, 1, 0]
    let q : State := { up with qf := { up.qf with amending := some { q := 0, idx := 0, target := 1, leaving := [3], mark := 0 } } }
    theAmend (wa 8) = some (amendD 8) ∧ (wa 8).qf.amending = none ∧ scanOpen (wa 8) = false ∧ (getQ (wa 8) 0).state ≠ 5
    ∧ ((readImage (wa 8) (amendD 8) none []).map (fun x => x.1.toOption)) = some none
    ∧ ((readImage (wa 8) (amendD 8) (some am) []).map (fun x => x.1.toOption)) = some (some am)
    ∧ isAmendment am = true ∧ isAmendment [] = false ∧ (validate (wa 8) am (some cht) false).isSome = true
    ∧ (validate (wa 8) [] (some cht) false).isSome = true ∧ (wa 8).chart = some cht
    ∧ ((wa 8).ch.slots.getD (wa 8).ch.current ChSlot.empty).chain.length < 64
    ∧ resident (getT q 3) = false ∧ 0 + cht.quiesceTicks ≤ q.now ∧ q.chart = some cht := by decide +kernel

/-- A tile whose context 0 runs a task of the runtime of constellation 1 (R339). -/
def rtT : Tile := { tTile { Ctx.reset with run := .runtime } with launch := some (rtQueue, 1) }
/-- A registered model of constellation 1, with its copy in region 0, and one request, waiting or in half 0; the runtime runs, its
coordinator on tile 1 outside the instance, whose only replica tile is 0. -/
def mdl : Model :=
  { const := 1, num := 4, inst := 0, maxSeq := 8, kvPages := 64, image := [], standby := none, sbParts := []
    parts := [{ const := 1, die := 0, regions := [0], extents := [(0, 2 ^ 30)], copyLen := 4096, gens := [(0, 0)] }] }
def req (p : ReqPhase) : Req :=
  { id := 3, const := 1, model := 4, tag := 7, rqueue := 0, idsOut := false, seed := 0, temp := 0, topP := 0, topK := 0, maxTokens := 8, prompt := [1, 2]
    phase := p, moved := false, done := 0, toks := [], part := [], buf := [], chunk := 0, cancel := true, at_ := 0, first := none, last := 0
    served := none, kv := [], pages := [], energy := 0 }
def ws (rs : List Req) : State :=
  { up with chart := some { cht with consts := [{ cst with copies := [{ number := 0, minReplicas := 1, fbConst := 255, fbCopy := 0, shards := [{ die := 0, replicas := 1 }] }] }] }
            tiles := [(0, rtT), (1, rtT)], rt := { models := [mdl], reqs := rs, next := 4, rounds := [] } }

/-- ServiceRuntime: a delivery of each OP; a request that joins a half; one in a half; a region that was lost. -/
theorem test_hyp_ServiceRuntime :
    let R := ws [req .waiting]
    let dl := fun (b : List Byte) =>
      let s1 := { R with qf := { R.qf with queues := [(9, { qs 2 with dlv := 0x1000, prod := 1 })], deliveries := [(9, 0)] }
                         mem := stWriteN R.mem 0x1000 (List.replicate 32 0#8 ++ b ++ List.replicate (224 - b.length) 0#8) }
      (delivery s1 9).map (fun x => (x.1.id, leAt x.2 0x20 1, x.2))
    let gen := List.replicate 32 0#8 ++ [5#8] ++ List.replicate 223 0#8
    let can := [2#8, 0#8, 4#8, 0#8, 0#8, 0#8, 0#8, 0#8, 7#8]
    let gok := [1#8, 0#8] ++ toLE 2 5 ++ toLE 4 0 ++ toLE 8 0 ++ toLE 4 0 ++ toLE 4 0 ++ toLE 4 0x3F800000 ++ toLE 4 0 ++ toLE 4 8 ++ toLE 4 1
    let G := List.replicate 32 0#8 ++ [1#8, 0#8, 5#8, 0#8] ++ List.replicate 12 0#8 ++ toLE 4 0 ++ toLE 4 0x3F800000 ++ toLE 4 0 ++ toLE 4 8 ++ toLE 4 1 ++ List.replicate 188 0#8
    let C := List.replicate 32 0#8 ++ can ++ List.replicate 215 0#8
    let _ := gok
    ((dl [5]).map (fun x => (x.1, x.2.1))) = some (1, 5) ∧ ((dl can).map (fun x => (x.1, x.2.1))) = some (1, 2)
    ∧ ((dl [3]).map (fun x => (x.1, x.2.1))) = some (1, 3) ∧ ((dl [4, 0, 4]).map (fun x => (x.1, x.2.1))) = some (1, 4)
    ∧ (promptBytes R cst gen []).isSome = true ∧ genFieldsOk G = true ∧ ((promptBytes R cst G []).map (fun x => x.1.isSome)) = some true
    ∧ getModel R 1 5 = none ∧ leAt C 0x22 2 ≤ 1023 ∧ restZero C [(0x20, 1), (0x22, 2), (0x28, 8)] = true ∧ (getModel R 1 4).isSome = true
    ∧ R.rt.reqs.any (fun x => reqOf 1 4 x && x.tag == leAt C 0x28 8) = true ∧ (imageBytes R cst C []).isSome = true
    ∧ restZero (List.replicate 32 0#8 ++ [4#8, 0#8, 4#8] ++ List.replicate 221 0#8) [(0x20, 1), (0x22, 2)] = true ∧ (ws []).rt.reqs.any (reqOf 1 4) = false
    ∧ modelServes R mdl false = true ∧ (0 : Nat) < mdl.maxSeq / 2 ∧ pagesHeld R mdl false + reqPages 2 8 ≤ mdl.kvPages
    ∧ inHalf mdl false 0 (req (.running 0)) = true ∧ mayPost R = false ∧ bufLen (req .waiting) ≤ 3072
    ∧ 3072 < bufLen { req (.running 0) with buf := List.replicate 4 (List.replicate 1024 0#8) }
    ∧ pageTables R mdl (req .waiting) = [[0]]
    ∧ copyPlace mdl false = some (1, 0) ∧ nextHalf (ws [req (.running 0)]) 1 0 = some (roundKey mdl false 0)
    ∧ (let m := { mdl with parts := mdl.parts.map (fun p => { p with gens := [(0, 99)] }) }
       regionsLost R m false = true ∧ copyServes R 1 m.inst = true ∧ modelServes R m false = false ∧ modelServes R m true = false
       ∧ modelServes R { m with standby := some (1, 0) } true = true)
    ∧ (let L := { R with tiles := [(0, { Tile.reset with tstate := .t1 }), (1, { Tile.reset with tstate := .t1 })] }
       L.chart.any (fun c => c.consts.any (fun x => x.flags.testBit 0 && (instTiles x &&& x.tiles).testBit 0)) = true
       ∧ tileServes L 0 = true ∧ (getT L 0).chartLeave = false ∧ resident (getT L 0) = false)
    ∧ lsAlive up = true ∧ up.su.rtOk = true ∧ up.pw.mstate ≠ 2 ∧ scanOpen up = false := by decide +kernel

/-! Hypotheses of the statement on power -/

def pw (f : PwSt → PwSt) : State := { up with pw := f up.pw }
def idle : Ctx := Ctx.reset
/-- The module with context 0 of tile 0 idle, the tile in the given state. -/
def wt (st : TState) : State := { up with tiles := [(0, { tTile idle with tstate := st })] }

theorem test_hyp_Power : tileIdle (tTile idle) = true ∧ rtBusy (wt .t0) 0 = false ∧ t2Idle (wt .t1) 0 ≠ 0 ∧ 0 + t2Idle (wt .t1) 0 ≤ (wt .t1).now
    ∧ lsAlive up = true ∧ up.su.mainOk = true ∧ up.pw.brake = false ∧ up.pw.mark + 1250 ≤ up.now
    ∧ (cht.consts.map (·.id)).Nodup ∧ cst.env.capW < mget [(1, 4197)] 0 1 ∧ levelOf up cst < 7
    ∧ (pw (fun p => { p with brake := true })).pw.brakeFrom + 125000000 ≤ up.now
    ∧ m2Refusal (pw (fun p => { p with mstate := 2 })) = some 4 ∧ m2Refusal up = none ∧ m2Refusal (wa 8) = some 3
    ∧ m2Refusal (wq (qs 2) [dsc signalD .ready]) = none
    ∧ m2Refusal (wq { qs 2 with tail := 1 } []) = some 1
    ∧ (getW { up with wakes := mset up.wakes 3 { WakeSt.reset with wkState := 8 } } 3).wkState.toNat.testBit 3 = true ∧ lsAlive State.reset = false
    ∧ up.pw.masked = false ∧ (pw (fun p => { p with brake := true, low := false })).pw.accepted + 125000 ≤ up.now
    ∧ permit up 4 = true ∧ lsManaged up = true ∧ up.sec.lifecycle ≠ 3
    ∧ quietModule (wt .t1) = true ∧ quietModule (wt .t0) = false ∧ scanOpen up = false := by decide +kernel

/-- Power: a constellation above its cap steps down one level; under 90 % of the cap it steps up again. -/
theorem test_interval : levelOf (interval up 500 [(1, 101)] 2000 true) cst = levelOf up cst + 1
    ∧ levelOf (interval (setLevel up cst 6) 500 [(1, 89)] 2000 true) cst = 5
    ∧ levelOf (interval (setLevel up cst 6) 500 [(1, 90)] 2000 true) cst = 6 := by decide +kernel

/-- A token that passes checks 1 to 4: one of the right form, for this part, with the outstanding challenge and a good
signature (the serial and the signature check are the part's own, so they are premises). -/
theorem test_hyp_token (s : State) (b : List Byte) (kind signer at_ : Nat) (h1 : tokenForm b kind = true) (h2 : leAt b 8 8 = moduleSerial)
    (h3 : s.sec.chal = some (slice b 0x10 32, at_)) (h4 : s.now < at_ + 750000000) (h5 : signer = 2)
    (h6 : Config.slhVerify Config.vendorKey (slice b 0 0x80) (slice b 0x80 29792) = true) : tokenChecks s b kind signer = none := by
  simp [tokenChecks, h1, h2, h3, h4, h5, h6, chalValid, signerKey]

/-! Hypotheses of the statements on security and debug -/

def sc (f : SecSt → SecSt) : State := { up with sec := f up.sec }
/-- A session of a level over the whole module, opened over I3C. -/
def ses (l : Nat) : Session :=
  { level := l, mask := 2 ^ 64 - 1, transport := 1, hold := false, audited := false, ticks := 1000, at_ := 5, signer := 2, chal := [] }
/-- An INVASIVE session with context 0 of tile 0 halted. -/
def dbgS : State := { sc (fun x => { x with session := some (ses 2) }) with tiles := [(0, tTile { tCtx with dbg := 1 })] }
/-- The form of a debug token of level 2 for everything; the serial and the signature are zeros. -/
def tokB (kind lvl goal : Nat) : List Byte :=
  toLE 4 0x5444584C ++ toLE 2 1 ++ toLE 1 kind ++ [0#8] ++ List.replicate 40 0#8 ++ List.replicate 8 (if kind = 0 then 0xFF#8 else 0#8)
    ++ toLE 1 lvl ++ toLE 1 goal ++ [0#8, 0#8] ++ toLE 4 (if kind = 0 then 1000 else 0) ++ List.replicate 29856 0#8

theorem test_hyp_Security : lsManaged up = true ∧ up.sec.lifecycle = 0 ∧ up.sec.idKey = none
    ∧ (sc (fun x => { x with idKey := some 1 })).sec.idKey.isSome = true ∧ tokenChecks up [] 0 2 = some 1 ∧ stateSigner 0 = 2 ∧ stateSigner 2 = 1
    ∧ leAt (tokB 0 2 0) 0x38 1 = 2 ∧ underCeiling up 2 (2 ^ 64 - 1) = true ∧ powerPermits up 2 = true ∧ powerPermits up 1 = true
    ∧ up.sec.session = none ∧ up.sec.audit = none ∧ leAt (tokB 2 0 1) 0x39 1 = 1
    ∧ transitionOk up 1 = false ∧ transitionOk (sc (fun x => { x with idKey := some 1 })) 1 = true
    ∧ transitionOk (sc (fun x => { x with lifecycle := 1 })) 2 = true ∧ transitionOk (sc (fun x => { x with lifecycle := 2 })) 3 = true
    ∧ scanOpen up = false ∧ lsAnswers up = true ∧ fwOk up 0 [] = false
    ∧ spdmUp up .lodestar = true ∧ spdmUp { up with fm := { up.fm with on := true } } .meter = true ∧ (0x12 : BitVec 8) ≠ 0x13#8
    ∧ (spdmKey (sc (fun x => { x with idKey := some 1, certs := [1#8] })) .lodestar) = (some 1, [1#8])
    ∧ (measBlocks up .lodestar 8).isSome = true ∧ measBlocks up .lodestar 9 = none ∧ (measBlocks up .lodestar 255).isSome = true
    ∧ (5 : Nat) + 750000000 ≤ up.now ∧ up.now < (10 ^ 9 - 5) + 750000000
    ∧ up.now ≤ 10 ^ 9 + 1250000 ∧ (ses 1).transport = transportCode .i3c ∧ (ses 1).transport ≠ transportCode .jtag ∧ (ses 1).at_ + (ses 1).ticks ≤ up.now
    ∧ dbgReads dbgS (ses 2) (.gpr 0 0 5) = true ∧ (dbgRead dbgS (.gpr 0 0 5)).isSome = true ∧ dbgReads dbgS (ses 1) (.gpr 0 0 5) = false
    ∧ dbgReads dbgS (ses 1) (.mem 0 4) = true ∧ dbgReads dbgS (ses 1) (.mem 0 0) = false
    ∧ invasive dbgS 0 = true ∧ (getT dbgS 0).tstate ≠ .t3 ∧ (getC dbgS 0 0).dbg = 1
    ∧ (let r := { dbgS with tiles := [(0, tTile tCtx)] }; (getT r 0).held = false ∧ (getC r 0 0).dbg ≠ 1 ∧ (getC r 0 0).pend = none ∧ (getC r 0 0).run ≠ .idle)
    ∧ (sc (fun x => { x with lifecycle := 3, wiping := true })).sec.wiping = true := by decide +kernel
/-- Security: a token of KIND 0 and one of KIND 2 have the form of check 1. -/
theorem test_token_form : tokenForm (tokB 0 2 0) 0 = true ∧ tokenForm (tokB 2 0 1) 2 = true ∧ tokenForm (tokB 0 4 0) 0 = false := by decide +kernel
/-- Security, Meter, StartupAndReset: an image is good where its form, digest, signature and version are; the first two of these
are what the vendor computes with functions the model leaves open. -/
theorem test_hyp_image (m k fl : Nat) (b : List Byte) (h1 : leAt b 0 4 = m) (h2 : leAt b 4 2 = 1) (h3 : leAt b 6 2 = k) (h4 : allZero (slice b 0x18 40) = true)
    (h5 : b.length = 0x80 + leAt b 0x0C 4 + 29792) (h6 : slice b 0x40 64 = Config.shake256 (slice b 0x80 (leAt b 0x0C 4)))
    (h7 : Config.slhVerify Config.vendorKey (slice b 0 0x80) (slice b (0x80 + leAt b 0x0C 4) 29792) = true) (h8 : fl ≤ leAt b 8 4)
    (h9 : 1 ≤ leAt b 0x0C 4) (h10 : leAt b 0x0C 4 ≤ 0x1000000) :
    imageOk m k fl b = true := by
  simp [imageOk, h1, h2, h3, h4, h6, h7, h8, h9, h10]; omega
/-- Security: version, and a version that is not 1.3. -/
theorem test_spdm : (match exec (.spdmGetCapabilities .lodestar 0x12#8) up with
    | .next s' => s'.out == [.spdm false (.error .versionMismatch)] | _ => false) = true := by decide +kernel

/-! Hypotheses of the statement on the meter -/

def fm (f : MeterSt → MeterSt) : State := { up with fm := f { up.fm with on := true } }
def post1 (n : Nat) : MPost := { tile := 3, op := 0, seq := n, counts := List.replicate 8 0 }
theorem test_hyp_Meter :
    let M := (fm id).fm
    M.on = true ∧ M.fault = false ∧ M.posts.length < 4096 ∧ (post1 1).seq = mget M.lastSeq 0 3 + 1 ∧ (post1 1).seq < 2 ^ 32
    ∧ (5 : Nat) + 750000000 ≤ up.now ∧ dueBlock { M with ledger := List.replicate 256 [] } = some 0 ∧ dueBlock { M with ledger := List.replicate 255 [] } = none
    ∧ logFull M = false ∧ logFull { M with log := List.replicate 1024 [] } = true
    ∧ ({ M with ledger := List.replicate 5 [] } : MeterSt).base ≤ 4 ∧ 4 < nextIndex { M with ledger := List.replicate 5 [] } ∧ nextIndex { M with ledger := List.replicate 5 [] } ≤ 5
    ∧ mfind { M with marks := [(0, [1#8])] }.marks 0 = some [1#8] ∧ mfind M.marks 0 = none ∧ M.sealed = 0 ∧ M.keys = none
    ∧ (List.replicate 96 0#8).length = paramLen 3 ∧ (List.replicate 64 0#8).length = paramLen 4
    ∧ leAt [0, 0, 0, 0, 0, 0, 2, 0] 6 2 = 2 ∧ leAt [0, 0, 0, 0, 0, 0, 1, 0] 6 2 = 1 ∧ up.su.mainGood = true := by decide +kernel
/-- Meter: a gap of one post is one lost. -/
theorem test_post_gap : (match exec .activityPostReceive (fm (fun m => { m with transit := [post1 2] })) with
    | .next s' => s'.fm.lost == 1 | _ => false) = true := by decide +kernel
theorem test_readLedger : (match exec (.readLedger 1 2) (fm (fun m => { m with ledger := [[1#8], [2#8], [3#8], [4#8]] })) with
    | .next s' => s'.out == [.sideband 3 [2#8, 3#8]] | _ => false) = true := by decide +kernel

/-! Hypotheses of the statements on errors and recovery, start-up and reset -/

def er1 : ErrRec := { cls := 0, flags := 0, die := 3, code := 0x401, unit := 0, dieSeq := 1, count := 1, addr := 0, detail := [] }
theorem test_hyp_Recovery :
    let s1 := { wq (qs 2) [] with wakes := mset up.wakes 3 { WakeSt.reset with wkState := 2, errQ := [er1] } }
    lsAlive s1 = true ∧ mayPost s1 = true ∧ diff32 s1.qf.errPosts s1.qf.errCons < 1024 ∧ nextDie s1 = some 3 ∧ (getW s1 3).errQ = [er1]
    ∧ up.rec_.hbTick + 37500 ≤ up.now ∧ peerAlive up = true ∧ (0 : Nat) + 37500 ≤ up.now
    ∧ ({ up.rec_ with busy := 8 } : RecSt).busy.testBit 3 = true ∧ 3 ≤ up.su.stage ∧ up.su.hold = false ∧ up.su.fail ≠ 1 ∧ scanOpen up = false
    ∧ (getW { up with wakes := [] } 31).wkState.toNat.testBit 4 = false ∧ (getW { up with wakes := [] } 31).hbMark + 625000 ≤ up.now
    ∧ (theAmend (wa 8)).isSome = true ∧ (wa 8).qf.amending = none ∧ peerAlive (wa 8) = true ∧ scanOpen (wa 8) = false
    ∧ fenceCause up 3 ≤ 1 ∧ up.su.auxGood = true ∧ up.su.mainOk = true := by decide +kernel
/-- Recovery: a fatal fault of C3 fences its domain FATAL. -/
theorem test_fatal : (match exec (.dieFatal 3 1) up with | .next s' => fenceCause s' 3 == 2 && fenceCause s' 4 == 0 | _ => false) = true := by decide +kernel

def st (n : Nat) : State := { up with su := { up.su with stage := n } }
theorem test_hyp_StartupAndReset :
    State.reset.su.auxGood = false ∧ State.reset.su.mainGood = false ∧ up.su.mainGood = true ∧ up.su.hold = false ∧ up.su.auxGood = true
    ∧ (st 3).su.again = false ∧ (st 3).su.fail ≠ 1 ∧ lsAlive (st 3) = true ∧ lsAlive (st 8) = true ∧ (st 4).sec.wiping = false
    ∧ up.su.perst = false ∧ 3 ≤ up.su.stage ∧ up.su.mainOk = true ∧ (0x5752 : BitVec 64).toNat % 65536 = 0x5752 ∧ (0x5753 : BitVec 64).toNat % 65536 ≠ 0x5752
    ∧ lsManaged up = true ∧ trimRefused up = none ∧ trimRefused (sc (fun x => { x with lifecycle := 2 })) = some 1
    ∧ trimRefused (wq { qs 2 with tail := 1 } []) = some 2
    ∧ trimValid [] = false ∧ (getW up 27).wkState.toNat.testBit 1 = true ∧ (5 : Nat) + 12500000 ≤ up.now
    ∧ targetUp up .lodestar = true ∧ (0x10 : BitVec 7).toNat = staticAddr up .lodestar := by decide +kernel
/-- StartupAndReset: step 2 has an image to run where the one in the current slot is good (`test_hyp_image`). -/
theorem test_hyp_fwChoice (s : State) (h : fwOk s 0 (fwImage s 0 (s.sec.current.getD 0 0)) = true) : (fwChoice s 0).isSome = true := by
  simp only [fwChoice, h, if_true, Option.isSome_some]
/-- StartupAndReset: a trim image is valid where its form and digest are. -/
theorem test_hyp_trim (b : List Byte) (h1 : b.length = 65536) (h2 : leAt b 0 4 = 0x5254584C) (h3 : leAt b 4 2 = 1) (h4 : leAt b 7 1 = 0)
    (h5 : leAt b 8 8 = moduleSerial) (h6 : allZero (slice b 0x14 12) = true) (h7 : allZero (slice b 0x20 32) = true)
    (h8 : allZero (slice b 0x5400 3072) = true) (h9 : allZero (slice b 0xE000 8128) = true) (h10 : slice b 0xFFC0 64 = Config.shake256 (slice b 0 0xFFC0)) :
    trimValid b = true := by
  simp [trimValid, h1, h2, h3, h4, h5, h6, h7, h8, h9, h10]

/-- DecodeEncode: a command that is well formed and has a word. -/
theorem test_hyp_DecodeEncode : wellFormed (.addi 0 0 .addi 1 2 0xFFF) = true ∧ (encodeWord (.addi 0 0 .addi 1 2 0xFFF)).isSome = true
    ∧ (decodeWord 0 0 ((encodeWord (.addi 0 0 .addi 1 2 0xFFF)).getD 0)) = some (.addi 0 0 .addi 1 2 0xFFF) := by decide +kernel
/-- StepKeepsMemory, ResetLeaves: reset holds the invariant, and a step of it answers. -/
theorem test_hyp_Step : stWf State.reset.mem = true ∧ (match step State.reset with | .next _ => true | _ => false) = true := by decide +kernel

end Tests
end Sys2Proof
end

/-!
PROOFS. The statement on a step of an empty queue (O2): what keeps the model's time, from the stack cache up to the requests
of the host, and what the effects of one tick leave.
-/

namespace Sys2Proof
namespace Machine

/-! Folds -/

/-- A fold whose every step keeps `now` keeps it. -/
theorem foldl_now {α : Type} {f : State → α → State} (h : ∀ s x, (f s x).now = s.now) (l : List α) (s : State) :
    (l.foldl f s).now = s.now :=
  List.foldlRecOn l f (motive := fun s' => s'.now = s.now) rfl (fun s' hs x _ => (h s' x).trans hs)

/-- A fold of steps that may wait, none of which changes a part of what it folds, does not change that part. -/
theorem foldl_bind_keeps {σ α β : Type} (part : σ → β) {f : σ → α → Option σ}
    (h : ∀ {r x r'}, f r x = some r' → part r' = part r) {l : List α} {r r' : σ}
    (e : l.foldl (fun acc x => acc.bind (fun r => f r x)) (some r) = some r') : part r' = part r := by
  have keeps : ∀ u ∈ l.foldl (fun acc x => acc.bind (fun r => f r x)) (some r), part u = part r := by
    refine List.foldlRecOn l _ (motive := fun acc => ∀ u ∈ acc, part u = part r) ?_ ?_
    · rintro u ⟨⟩
      rfl
    · intro acc ih x _ u hu
      obtain ⟨v, hv, hf⟩ := Option.bind_eq_some_iff.mp hu
      exact (h hf).trans (ih v hv)
  exact keeps r' e

/-! What leaves time alone: tiles and error records -/

@[simp] theorem postErr_now (s : State) (die cls code unit addr : Nat) (detail : List Byte) (flags count : Nat) :
    (postErr s die cls code unit addr detail flags count).now = s.now := by
  simp only [postErr]; split <;> rfl

@[simp] theorem sendPost_now (s : State) (t : Nat) : (sendPost s t).now = s.now := by
  simp only [sendPost]; split <;> rfl

@[simp] theorem reclock_now (s : State) (t : Nat) (st : TState) (level duty : Nat) :
    (reclock s t st level duty).now = s.now := by
  simp only [reclock, setT_now]; split <;> simp

@[simp] theorem wakeTile_now (s : State) (t : Nat) : (wakeTile s t).now = s.now := by
  simp only [wakeTile]; split <;> simp

@[simp] theorem stopTile_now (s : State) (t st : Nat) : (stopTile s t st).now = s.now := by
  simp [stopTile]

@[simp] theorem lsRead_now (s : State) (t o n : Nat) : (lsRead s t o n).2.2.now = s.now :=
  foldl_now (fun _ _ => by simp) _ _

@[simp] theorem lsPoison_now (s : State) (t o n : Nat) : (lsPoison s t o n).now = s.now := by
  simp only [lsPoison]; split <;> simp

@[simp] theorem mxSpoil_now (s : State) (t o n : Nat) : (mxSpoil s t o n).now = s.now := by
  simp only [mxSpoil]; split <;> simp

@[simp] theorem lsStore_now (s : State) (t o : Nat) (bs : List Byte) : (lsStore s t o bs).now = s.now := by
  simp [lsStore, lsWrite]

@[simp] theorem windowWrite_now (s : State) (g o : Nat) (bs : List (Option Byte)) (pois : List Bool) :
    (windowWrite s g o bs pois).now = s.now := by
  simp only [windowWrite]
  rw [foldl_now (fun s i => by split <;> simp), foldl_now (fun _ _ => by simp)]

/-! What leaves time alone: the stack and its cache -/

theorem domainFence_now (s : State) (d cause : Nat) {record : State → State} (h : ∀ s, (record s).now = s.now) :
    (domainFence s d cause record).now = s.now := by
  simp only [domainFence]
  split
  · rfl
  · rw [h]
    have stopped := foldl_now (fun s t => stopTile_now s (64 * d + t) endFault) (List.range 64) s
    split <;> simp only [setD_now, stopped]

@[simp] theorem spend_now (s : State) (d n : Nat) : (spend s d n).now = s.now := by
  simp only [spend]; split <;> simp

@[simp] theorem noteCorr_now (s : State) (d syms : Nat) : (noteCorr s d syms).now = s.now := by
  simp only [noteCorr]; split <;> simp

@[simp] theorem noteSyms_now (s : State) (d : Nat) (fix : List Nat) : (noteSyms s d fix).now = s.now := by
  simp only [noteSyms]
  rw [foldl_now (fun s i => by split <;> simp), setD_now]

@[simp] theorem uncorrSector_now (s : State) (d k : Nat) : (uncorrSector s d k).now = s.now := rfl

@[simp] theorem sramRecord_now (s : State) (d off : Nat) : (sramRecord s d off).now = s.now := by
  simp [sramRecord]

@[simp] theorem takeSector_now (s : State) (d a off : Nat) (errs : List SymErr) (back : Bool) :
    (takeSector s d a off errs back).now = s.now := by
  unfold takeSector
  extract_lets
  split
  case h_1 => rfl
  case h_2 => rfl
  case h_3 =>
    split
    · exact domainFence_now _ _ _ (fun _ => postErr_now ..)
    · exact postErr_now ..
  case h_4 fix _ =>
    extract_lets s₁ s₂ s₃ s₄
    have delivered : s₁.now = s.now := foldl_now (fun _ _ => by extract_lets; split <;> rfl) _ _
    have noted : s₃.now = s.now := (noteSyms_now ..).trans delivered
    have paid : s₄.now = s.now := by
      simp only [s₄]
      split <;> simp [noted]
    split
    · exact (postErr_now ..).trans paid
    · exact (noteCorr_now ..).trans paid

@[simp] theorem takeSectors_now (s : State) (d lineA lineOff : Nat) (errs : List SymErr) (secs : List Nat) :
    (takeSectors s d lineA lineOff errs secs).now = s.now :=
  foldl_now (fun _ _ => takeSector_now ..) _ _

@[simp] theorem readWords_now (s : State) (d lineA lineOff : Nat) (errs : List SymErr) (secs : List Nat) :
    (readWords s d lineA lineOff errs secs).now = s.now :=
  foldl_now (fun s i => by
    have noted := foldl_now (fun s (_ : SymErr) => noteCorr_now s d 0) (errsAt errs .word i) s
    extract_lets
    split
    · exact noted
    · exact (sramRecord_now ..).trans noted) _ _

@[simp] theorem evictWords_now (s : State) (d : Nat) (v : Option SLine) (errs : List SymErr) :
    (evictWords s d v errs).now = s.now := by
  cases v with
  | none => rfl
  | some l => exact foldl_now (fun s i => by split <;> simp) _ _

theorem scRequest_now {s s' : State} {d lineA lineOff : Nat} {secs : List Nat} {k : ScKind} {hint : Nat} {w : Bool}
    {errs : List SymErr} {dropped : List Nat} (h : scRequest s d lineA lineOff secs k hint w errs = .done s' dropped) :
    s'.now = s.now := by
  unfold scRequest at h
  extract_lets at h
  split at h
  case h_1 =>
    extract_lets at h
    split at h
    · cases h
    · split at h <;> obtain ⟨rfl, _⟩ := ScRes.done.inj h <;>
        exact (readWords_now ..).trans ((takeSectors_now ..).trans (spend_now ..))
  case h_2 =>
    split at h
    · split at h <;> cases h
      exact (takeSectors_now ..).trans (spend_now ..)
    · split at h <;> cases h
      exact (takeSectors_now ..).trans ((evictWords_now ..).trans (spend_now ..))

theorem homeRead_now {s s' : State} {d off a n hint : Nat} {w : Bool} {errs : List SymErr} {bs : List Byte} {p : Bool}
    (h : homeRead s d off a n hint w errs = some (bs, p, s')) : s'.now = s.now := by
  simp only [homeRead] at h
  split at h
  case h_1 => cases h
  case h_2 _ _ _ hreq =>
    cases h
    rw [foldl_now (fun s i => by rfl), scRequest_now hreq]

@[simp] theorem memWriteSector_now (s : State) (a : Nat) (bs : List (Option Byte)) (poison : Bool) :
    (memWriteSector s a bs poison).now = s.now := by
  simp only [memWriteSector]
  split
  · rfl
  · split <;> rfl

theorem homeWrite_now {s s' : State} {d off a : Nat} {bs : List (Option Byte)} {hint : Nat} {pois : List Nat}
    {errs : List SymErr} (h : homeWrite s d off a bs hint pois errs = some s') : s'.now = s.now := by
  simp only [homeWrite] at h
  split at h
  case h_1 => cases h
  case h_2 _ _ _ hreq =>
    cases h
    rw [foldl_now (fun _ _ => memWriteSector_now ..), scRequest_now hreq]

/-! What leaves time alone: accesses at their point of coherence -/

theorem cohReadLine_now {s s' : State} {a n hint : Nat} {w : Bool} {errs : List SymErr} {bs : List Byte} {pois : List Bool}
    (h : cohReadLine s a n hint w errs = some (bs, pois, s')) : s'.now = s.now := by
  simp only [cohReadLine] at h
  split at h
  case h_1 =>
    split at h
    case h_1 => cases h
    case h_2 hread => cases h; exact homeRead_now hread
  case h_2 => cases h; simp
  case h_3 => cases h; rfl

theorem cohRead_now {s : State} {a n hint : Nat} {w : Bool} {errs : List SymErr} {r : CohRd}
    (h : cohRead s a n hint w errs = some r) : r.s.now = s.now := by
  simp only [cohRead] at h
  split at h
  · cases h; rfl
  · refine foldl_bind_keeps (fun r : CohRd => r.s.now) ?_ h
    intro r x r' hx
    obtain ⟨_, hline, rfl⟩ := Option.map_eq_some_iff.mp hx
    exact cohReadLine_now hline

theorem cohWriteLine_now {s s' : State} {a : Nat} {bs : List (Option Byte)} {pois : List Bool} {hint : Nat}
    {errs : List SymErr} (h : cohWriteLine s a bs pois hint errs = some s') : s'.now = s.now := by
  simp only [cohWriteLine] at h
  split at h
  case h_1 => exact homeWrite_now h
  case h_2 => cases h; simp
  case h_3 => cases h; rfl

theorem cohWrite_now {s : State} {a : Nat} {bs : List (Option Byte)} {pois : List Bool} {hint : Nat} {errs : List SymErr}
    {r : Nat × State} (h : cohWrite s a bs pois hint errs = some r) : r.2.now = s.now := by
  simp only [cohWrite] at h
  split at h
  · cases h; rfl
  · obtain ⟨_, hlines, rfl⟩ := Option.map_eq_some_iff.mp h
    exact foldl_bind_keeps State.now cohWriteLine_now hlines

@[simp] theorem fabricFence_now (s : State) (i : Nat) : (fabricFence s i).now = s.now := by
  simp only [fabricFence]; split <;> rfl

@[simp] theorem noEgress_now (s : State) (a : Nat) (x : Option (Nat × Nat)) : (noEgress s a x).now = s.now := by
  cases x <;> simp [noEgress]

@[simp] theorem statusFrom_now (s : State) (i a n : Nat) : (statusFrom s i a n).2.now = s.now := by
  simp only [statusFrom]
  split
  · rfl
  · split <;> simp

theorem cohReadFrom_now {s : State} {i a n hint : Nat} {w : Bool} {errs : List SymErr} {r : CohRd}
    (h : cohReadFrom s i a n hint w errs = some r) : r.s.now = s.now := by
  simp only [cohReadFrom] at h
  split at h
  · cases h; simp
  · exact cohRead_now h

/-! What leaves time alone: doorbells -/

@[simp] theorem qwake_now (s : State) (t : Nat) (c : CtxId) (v : Nat) : (qwake s t c v).now = s.now := by
  simp only [qwake]; split <;> simp

@[simp] theorem qwakeAll_now (s : State) (v : Nat) (f : Nat → Nat → Bool) : (qwakeAll s v f).now = s.now :=
  foldl_now (fun _ _ => foldl_now (fun s i => by
    split
    · split <;> simp
    · rfl) _ _) _ _

@[simp] theorem armedWake_now (s : State) (q : Nat) : (armedWake s q).now = s.now :=
  foldl_now (fun s tT => by
    split
    · rfl
    · exact foldl_now (fun s i => by split <;> simp) _ _) _ _

@[simp] theorem queueEvent_now (s : State) (q : Nat) (bell : Bool) : (queueEvent s q bell).now = s.now := by
  cases bell <;> simp [queueEvent]

@[simp] theorem idleTest_now (s : State) (q : Nat) : (idleTest s q).now = s.now := by
  simp only [idleTest]; split <;> simp

@[simp] theorem doorbell_now (s : State) (q T : Nat) : (doorbell s q T).now = s.now := by
  simp only [doorbell]
  split
  · simp
  · split
    · simp
    · split <;> simp

/-! What leaves time alone: requests of the host -/

theorem bar2Write_now {s s' : State} {a : Nat} {bytes : List Byte} {errs : List SymErr} {inside : Bool}
    (h : bar2Write s a bytes errs inside = some s') : s'.now = s.now := by
  simp only [bar2Write] at h
  split at h
  · cases h; rfl
  · split at h
    · cases h
      exact statusFrom_now ..
    · split at h
      · cases h; rfl
      · obtain ⟨_, hwrite, rfl⟩ := Option.map_eq_some_iff.mp h
        exact cohWrite_now hwrite

@[simp] theorem abortRead_now (s : State) : (abortRead s).now = s.now := rfl

theorem bar2Read_now {s s' : State} {a len : Nat} {errs : List SymErr} {inside : Bool}
    (h : bar2Read s a len errs inside = some s') : s'.now = s.now := by
  simp only [bar2Read] at h
  split at h
  · cases h; rfl
  · obtain ⟨r, hread, rfl⟩ := Option.map_eq_some_iff.mp h
    rw [← cohReadFrom_now hread]
    split
    · rfl
    · split <;> rfl

@[simp] theorem bar0Read_now (s : State) (off : Nat) (wide : Bool) : (bar0Read s off wide).now = s.now := by
  simp only [bar0Read]
  split
  · rfl
  · split
    · rfl
    · split <;> rfl

theorem hostPerform_now {s s' : State} {w : HostWait} (h : hostPerform s w = some s') : s'.now = s.now := by
  cases w with
  | write a bytes errs inside => exact bar2Write_now h
  | read a len errs inside => exact bar2Read_now h
  | bar0 off wide => cases h; exact bar0Read_now ..
  | doorbell q tail => cases h; exact doorbell_now ..

theorem performWaits_now (l : List HostWait) (s : State) : (performWaits l s).2.now = s.now := by
  induction l generalizing s with
  | nil => rfl
  | cons w r ih =>
    simp only [performWaits]
    split
    case h_1 hw => rw [ih, hostPerform_now hw]
    case h_2 => rfl

@[simp] theorem hostDrain_now (s : State) : (hostDrain s).now = s.now := performWaits_now _ _

theorem hostDrain_of_none_waiting {s : State} (h : s.hx.waiting = []) : hostDrain s = s := by
  simp only [hostDrain, h, performWaits]
  rw [← h]

/-! What one tick does before the host's requests go on -/

/-- The tile T' is T, at most with more words whose errors no read has found. -/
def LatentGrows (T T' : Tile) : Prop := { T' with latent := T.latent } = T ∧ ∀ w ∈ T.latent, w ∈ T'.latent

theorem LatentGrows.refl (T : Tile) : LatentGrows T T := ⟨rfl, fun _ h => h⟩

theorem LatentGrows.trans {T T' T'' : Tile} (h : LatentGrows T T') (h' : LatentGrows T' T'') : LatentGrows T T'' := by
  refine ⟨?_, fun w hw => h'.2 w (h.2 w hw)⟩
  rw [← h'.1] at h
  exact h.1

theorem mem_sIns_of_mem {l : List Nat} {w : Nat} (k : Nat) (h : w ∈ l) : w ∈ sIns l k := by
  induction l with
  | nil => cases h
  | cons j r ih =>
    simp only [sIns]
    split
    · exact List.mem_cons_of_mem k h
    · split
      · exact h
      · rcases List.mem_cons.mp h with rfl | hr
        · exact List.mem_cons_self
        · exact List.mem_cons_of_mem j (ih hr)

/-- What the effects of a tick leave, the host's requests apart: of the tiles all but latent errors, of the links all but
parks. -/
structure Steady (s s' : State) : Prop where
  now : s'.now = s.now
  mem : s'.mem = s.mem
  cdies : s'.cdies = s.cdies
  chart : s'.chart = s.chart
  ch : s'.ch = s.ch
  pw : s'.pw = s.pw
  su : s'.su = s.su
  hx : s'.hx = s.hx
  link : ∃ P E, s'.link = { s.link with parking := P, engines := E }
  tiles : ∀ t, LatentGrows (getT s t) (getT s' t)

theorem Steady.update (s : State) (d : Nat) (m : SMap (Nat × Nat)) (w : SMap WakeSt) (f : QfSt) (r : RecSt) (x : SecSt)
    (z : RtSt) :
    Steady s { s with draws := d, sram := m, wakes := w, qf := f, rec_ := r, sec := x, rt := z } :=
  ⟨rfl, rfl, rfl, rfl, rfl, rfl, rfl, rfl, ⟨_, _, rfl⟩, fun _ => .refl _⟩

theorem Steady.updateLink (s : State) (P : List Nat) (E : SMap Engine) :
    Steady s { s with link := { s.link with parking := P, engines := E } } :=
  ⟨rfl, rfl, rfl, rfl, rfl, rfl, rfl, rfl, ⟨P, E, rfl⟩, fun _ => .refl _⟩

theorem Steady.setT {s : State} {t : Nat} {T : Tile} (h : LatentGrows (getT s t) T) : Steady s (setT s t T) := by
  refine ⟨rfl, rfl, rfl, rfl, rfl, rfl, rfl, rfl, ⟨_, _, rfl⟩, fun u => ?_⟩
  rw [getT_setT]
  split
  case isTrue e => exact e ▸ h
  case isFalse => exact .refl _

theorem Steady.refl (s : State) : Steady s s := .update ..

theorem Steady.trans {s s' s'' : State} (h : Steady s s') (h' : Steady s' s'') : Steady s s'' where
  now := h'.now.trans h.now
  mem := h'.mem.trans h.mem
  cdies := h'.cdies.trans h.cdies
  chart := h'.chart.trans h.chart
  ch := h'.ch.trans h.ch
  pw := h'.pw.trans h.pw
  su := h'.su.trans h.su
  hx := h'.hx.trans h.hx
  link := by
    obtain ⟨_, _, e⟩ := h.link
    obtain ⟨P, E, e'⟩ := h'.link
    exact ⟨P, E, by rw [e', e]⟩
  tiles t := (h.tiles t).trans (h'.tiles t)

theorem Steady.foldl {α : Type} {f : State → α → State} (h : ∀ s x, Steady s (f s x)) (l : List α) (s : State) :
    Steady s (l.foldl f s) :=
  List.foldlRecOn l f (motive := Steady s) (.refl s) (fun s' hs x _ => hs.trans (h s' x))

theorem availTick_steady (s : State) : Steady s (availTick s) := by
  simp only [availTick]
  split <;> exact .update ..

theorem auditTimeout_steady (s : State) : Steady s (auditTimeout s) := by
  simp only [auditTimeout]
  split
  · split <;> exact .update ..
  · exact .refl s

theorem postReq_steady (n : Nat) (s : State) (q : Req) : Steady s (postReq n s q).1 := by
  induction n generalizing s q with
  | zero => exact .refl s
  | succ n ih =>
    simp only [postReq]
    split
    · exact .refl s
    · split
      case h_1 => exact .trans (.update ..) (ih (runtimePost ..) _)
      case h_2 => exact .update ..
      case h_3 => exact .refl s

theorem rtFlush_steady (s : State) : Steady s (rtFlush s) := by
  simp only [rtFlush, modRt]
  split
  · exact .refl s
  · refine .trans ?_ (.update ..)
    refine List.foldlRecOn _ _ (motive := fun (a : State × List Req) => Steady s a.1) (.refl s) ?_
    intro a posted q _
    dsimp only
    split
    · exact posted.trans (postReq_steady ..)
    · exact posted

theorem postErr_steady (s : State) (die cls code unit addr : Nat) (detail : List Byte) (flags count : Nat) :
    Steady s (postErr s die cls code unit addr detail flags count) := by
  simp only [postErr]
  split <;> exact .update ..

theorem sramCorr_steady (s : State) (t n : Nat) : Steady s (sramCorr s t n) := by
  simp only [sramCorr]
  split
  · exact .refl s
  · split
    · exact .trans (.update ..) (postErr_steady ..)
    · exact .update ..

theorem sramStrike_steady (s : State) (t w : Nat) : Steady s (sramStrike s t w) := by
  simp only [sramStrike]
  split
  · exact .refl s
  · exact .setT ⟨rfl, fun _ hv => mem_sIns_of_mem w hv⟩

theorem sramTick_steady (s : State) : Steady s (sramTick s) :=
  .trans (.foldl (fun _ _ => sramCorr_steady ..) _ s) (.foldl (fun _ _ => sramStrike_steady ..) _ _)

theorem modTabs_steady (s : State) (k : Nat) (f : UeTab → UeTab) : Steady s (modTabs s k f) :=
  .foldl (fun _ _ => .updateLink ..) _ s

theorem spreadParks_steady (s : State) : Steady s (spreadParks s) :=
  .trans (.foldl (fun _ _ => modTabs_steady ..) _ s) (.updateLink ..)

/-- The tick up to where the host's requests go on. -/
def tickBeforeHost (s : State) : State :=
  spreadParks (sramTick (rtFlush (auditTimeout (availTick { s with now := s.now + 1, fm := { s.fm with posts := [] } }))))

theorem tickBeforeHost_parking (s : State) : (tickBeforeHost s).link.parking = [] := rfl

theorem tick_eq (s : State) : tick s = hostDrain (tickBeforeHost s) := rfl

theorem tickBeforeHost_steady (s : State) :
    Steady { s with now := s.now + 1, fm := { s.fm with posts := [] } } (tickBeforeHost s) :=
  (availTick_steady _).trans <| (auditTimeout_steady _).trans <| (rtFlush_steady _).trans <|
    (sramTick_steady _).trans (spreadParks_steady _)

theorem tick_now (s : State) : (tick s).now = s.now + 1 := by
  rw [tick_eq, hostDrain_now, (tickBeforeHost_steady s).now]

theorem tick_of_none_waiting {s : State} (h : s.hx.waiting = []) : tick s = tickBeforeHost s := by
  rw [tick_eq, hostDrain_of_none_waiting]
  rw [(tickBeforeHost_steady s).hx, h]

theorem step_of_empty {s : State} (h : s.pending = []) : step s = .next (tick s) := by
  simp only [step, h]

/-- Settles O2: the effects of a tick are followed in their order; of them only the requests of the host that go on reach
further than the parts that `Steady` leaves out, and none of those requests moves time. -/
theorem emptyQueueTicks : Obligations.EmptyQueueTicks := by
  unfold Obligations.EmptyQueueTicks
  intro s hempty
  refine ⟨tick s, step_of_empty hempty, rfl, tick_now s, fun hquiet => ?_⟩
  rw [tick_of_none_waiting hquiet]
  have steady := tickBeforeHost_steady s
  refine ⟨steady.tiles, steady.mem, steady.cdies, steady.chart, steady.ch, steady.pw, steady.su, ?_⟩
  obtain ⟨P, E, hlink⟩ := steady.link
  have spread : P = [] := by simpa [hlink] using tickBeforeHost_parking s
  rw [hlink, spread]

end Machine
end Sys2Proof

/-!
PROOFS. The statements on faults, traps, entries and returns (O15, O17, O18, O32): what the shadows do where there are none,
what an entry from level 0 leaves, and what an instruction that completes into an entry leaves.
-/

namespace Sys2Proof
namespace Machine

/-! Shadows where there are none -/

/-- Nothing of the context is in a shadow: no load, no response fault that is due, no mode write (R81, R94, R109). -/
structure Unshadowed (C : Ctx) : Prop where
  loads : C.loads = []
  rfaults : C.rfaults = []
  modeWrites : C.modeWrites = []

theorem retire_of_no_loads {C : Ctx} (h : C.loads = []) : retire C = C := by
  cases C; cases h; rfl

theorem applyModes_of_no_modeWrites {C : Ctx} (h : C.modeWrites = []) (p : ModeWrite → Bool) : applyModes C p = C := by
  cases C; cases h; rfl

theorem captureShadow_of_no_loads {C : Ctx} (h : C.loads = []) (old0 old1 : Word) :
    captureShadow C old0 old1 = (C, 0, old0, old1) := by
  cases C; cases h; rfl

theorem countDown_of_unshadowed {C : Ctx} (h : Unshadowed C) : countDown C = C := by
  obtain ⟨hl, -, hm⟩ := h
  cases C; cases hl; cases hm; rfl

theorem countDown_setPc {C : Ctx} (h : Unshadowed C) (a : Nat) : countDown { C with pc := a } = { C with pc := a } :=
  countDown_of_unshadowed ⟨h.loads, h.rfaults, h.modeWrites⟩

/-- A load-shadow record without a valid slot restores nothing (R114). -/
theorem restoreShadow_of_no_slot {lds : Word} (h : lds = 0) (C : Ctx) (pre0 pre1 : Word) : restoreShadow C lds pre0 pre1 = C := by
  cases h; rfl

/-- Ending every shadow of a context that has none leaves it as it is (R114). -/
theorem endShadows_of_unshadowed {C : Ctx} (h : Unshadowed C) :
    applyModes (retire { C with loads := C.loads.map (fun l => { l with shadow := 0 }) }) (fun _ => true) = C := by
  obtain ⟨hl, -, hm⟩ := h
  cases C; cases hl; cases hm; rfl

theorem badLds_zero : badLds 0 = false := by decide

/-! Contexts that change alone -/

theorem getC_settle (s : State) (t : Nat) (c : CtxId) : getC (settle s t c) t c = now s t c := rfl

/-- Accesses of a context that are outstanding depend on the context by its loads alone. -/
theorem accessesOut_tileSetC {T : Tile} {c : CtxId} {C : Ctx} (h : C.loads = T.ctx[c].loads) :
    accessesOut (tileSetC T c C) c = accessesOut T c := by
  simp only [accessesOut, tileSetC_ctx, h]
  rfl

/-- Settling and then setting a context changes that context alone. -/
theorem sameButCtx_setC_settle (s : State) (t : Nat) (c : CtxId) (C : Ctx) :
    sameButCtx s (setC (settle s t c) t c C) t c := by
  refine ⟨?_, fun u hu => ?_, ?_⟩
  · rcases settle_cases s t c with h | h <;> rw [h] <;> rfl
  · rw [getT_setC_other _ _ _ _ _ hu.symm, getT_settle_other _ _ _ _ hu.symm]
  · rw [getT_setC_same, getC_setC_same, getT_settle, tileSetC_tileSetC]

/-! Entry from level 0 -/

/-- No access, fence or shadow of the context is outstanding, so that an entry completes where it begins (R110). -/
structure Quiet (s : State) (t : Nat) (c : CtxId) : Prop where
  unshadowed : Unshadowed (getC s t c)
  accesses : accessesOut (getT s t) c = false
  fence : (getC s t c).fence = none

/-- The context is at level 0 outside group mode: no entry is open and no path has to park (R112, R164). -/
structure PlainLevel0 (C : Ctx) : Prop where
  group : inGroup C = false
  dfl : dfl C = false
  exl : exl C = false

/-- Where an entry from level 0 goes: the target of `scall`, else the vector of R106. -/
def entryPc (C : Ctx) (p : PendEntry) : Nat :=
  match (if p.kind = 3 then p.target else none) with
  | some a => a
  | none => (wfld C.vbase 47 12 * 4096 + 32 * p.code) % 2 ^ 48

/-- The context after entry p from level 0, with nothing outstanding and outside group mode (R110, R112, R143). -/
def enteredFrom0 (C : Ctx) (p : PendEntry) : Ctx :=
  { C with
    ipend := if p.kind = 2 ∧ p.code ≥ 0x20 then C.ipend &&& ~~~(toW (2 ^ (p.code - 0x20))) else C.ipend
    epc := toW (p.epc % 2 ^ 48 / 4 * 4), estatus := toW (b2n C.sup)
    ecause := causeWord p.code p.kind p.seg p.access p.half false
    einfo := p.info, esrc := toW p.esrc, elds := 0, evstart := toW p.vstart, vstart := 0, entry := 1, sup := true
    pend := none, run := .running, lastLane := none, fenceOn := false, pc := entryPc C p }

/-- Setting a quiet context to one with the same shadows and fence leaves it quiet. -/
theorem quiet_setC {s : State} {t : Nat} {c : CtxId} {C : Ctx} (quiet : Quiet s t c) (shadows : Unshadowed C)
    (fence : C.fence = none) : Quiet (setC s t c C) t c where
  unshadowed := by rwa [getC_setC_same]
  accesses := by
    rw [getT_setC_same, accessesOut_tileSetC (shadows.loads.trans quiet.unshadowed.loads.symm), quiet.accesses]
  fence := by rwa [getC_setC_same]

theorem endFence_of_no_fence {s : State} {t : Nat} {c : CtxId} (h : (getC s t c).fence = none) : endFence s t c = s := by
  simp only [endFence, h]

/-- A pending entry from level 0 with nothing outstanding is completed, with no shadow to capture and no path to park. -/
theorem enter_level0 {s : State} {t : Nat} {c : CtxId} (quiet : Quiet s t c) (level : PlainLevel0 (getC s t c))
    (p : PendEntry) : enter s t c p = setC s t c (enteredFrom0 (getC s t c) p) := by
  obtain ⟨⟨hloads, hrfaults, -⟩, -, hfence⟩ := quiet
  obtain ⟨hgroup, -, hexl⟩ := level
  simp only [inGroup] at hgroup
  simp only [exl] at hexl
  simp only [enter, endFence_of_no_fence hfence, retire_of_no_loads hloads, hloads, hrfaults, List.filterMap_nil,
    List.append_nil, List.filter_nil, List.foldl_nil, captureShadow_of_no_loads, Vector.set_getElem_self, exl, hexl, inGroup,
    hgroup, Bool.false_eq_true, if_false]
  simp only [enteredFrom0, entryPc, hloads, hrfaults, List.isEmpty_nil, true_and]
  rfl

/-- An entry raised at level 0 with nothing outstanding is taken at once. -/
theorem raiseEntry_level0 {s : State} {t : Nat} {c : CtxId} (quiet : Quiet s t c) (level : PlainLevel0 (getC s t c))
    (p : PendEntry) : raiseEntry s t c p = setC s t c (enteredFrom0 (getC s t c) p) := by
  have modes := applyModes_of_no_modeWrites quiet.unshadowed.modeWrites (fun _ => true)
  have begun : Quiet (setC s t c { getC s t c with pend := some p, lastLane := none }) t c :=
    quiet_setC quiet ⟨quiet.unshadowed.loads, quiet.unshadowed.rfaults, quiet.unshadowed.modeWrites⟩ quiet.fence
  have enters := enter_level0 begun (by rw [getC_setC_same]; exact ⟨level.group, level.dfl, level.exl⟩) p
  simp only [raiseEntry, level.dfl, modes, tryEnter, getC_setC_same, begun.accesses, enters, setC_setC]
  rfl

/-- Settles O15: a fault is an entry of kind 0, which goes to the vector and leaves TL_IPEND. -/
theorem faultEntry : Obligations.FaultEntry := by
  unfold Obligations.FaultEntry
  intro s t c f C hloads hrfaults hmodes haccesses hfence hgroup hdfl hexl
  exact raiseEntry_level0 ⟨⟨hloads, hrfaults, hmodes⟩, haccesses, hfence⟩ ⟨hgroup, hdfl, hexl⟩ _

/-! Instructions that complete into an entry -/

/-- The context after an instruction at level 0 that is not at a loop's end and transfers no control (R88). -/
def completed (C : Ctx) : Ctx :=
  { C with pc := (C.pc + 4) % 2 ^ 48, lastLane := none, fenceOn := false, dbg := if C.dbg = 2 then 1 else C.dbg }

theorem loopNext_of_not_atLoopEnd {C : Ctx} (h : atLoopEnd C = false) : loopNext C C.pc = ((C.pc + 4) % 2 ^ 48, C) := by
  simp only [atLoopEnd, Bool.or_eq_false_iff] at h
  obtain ⟨h0, h1⟩ := h
  simp [loopNext, h0, h1]

theorem advance_of_not_atLoopEnd {C : Ctx} (level : PlainLevel0 C) (h : atLoopEnd C = false) :
    advance C none = { C with pc := (C.pc + 4) % 2 ^ 48 } := by
  simp [advance, nextPc, level.group, level.dfl, level.exl, loopNext_of_not_atLoopEnd h]

theorem finishEntering_level0 {s : State} {t : Nat} {c : CtxId} (shadows : Unshadowed (getC s t c))
    (level : PlainLevel0 (getC s t c)) (h : atLoopEnd (getC s t c) = false) :
    finishEntering s t c = setC s t c (completed (getC s t c)) := by
  simp only [finishEntering, level.group, finish, modC, advance_of_not_atLoopEnd level h, countDown_setPc shadows]
  rfl

/-- An entry raised at level 0 behind a completed instruction, with nothing outstanding, is taken at once. -/
theorem raiseEntry_completed {s : State} {t : Nat} {c : CtxId} (quiet : Quiet s t c) (level : PlainLevel0 (getC s t c))
    (p : PendEntry) :
    raiseEntry (setC s t c (completed (getC s t c))) t c p = setC s t c (enteredFrom0 (completed (getC s t c)) p) := by
  obtain ⟨⟨hloads, hrfaults, hmodes⟩, -, hfence⟩ := id quiet
  have quiet' : Quiet (setC s t c (completed (getC s t c))) t c := quiet_setC quiet ⟨hloads, hrfaults, hmodes⟩ hfence
  have level' : PlainLevel0 (getC (setC s t c (completed (getC s t c))) t c) := by
    rw [getC_setC_same]
    exact ⟨level.group, level.dfl, level.exl⟩
  rw [raiseEntry_level0 quiet' level', getC_setC_same, setC_setC]

/-- A context that is ready has no response fault due (R109). -/
theorem now_rfaults_of_ready {s : State} {t : Nat} {c : CtxId} {regs : List Reg} (h : ready s t c regs = true) :
    (now s t c).rfaults = [] := by
  simp only [ready, canIssue, Bool.and_eq_true, List.isEmpty_iff] at h
  obtain ⟨⟨⟨⟨⟨-, hrfaults⟩, -⟩, -⟩, -⟩, -⟩ := h
  exact hrfaults

/-- The entry of `brk` (R105). -/
def brkEntry (C : Ctx) : PendEntry :=
  { code := 0x0D, kind := 1, info := 0, seg := 0, access := 0, half := false, epc := (C.pc + 4) % 2 ^ 48, esrc := 0
    target := none, vstart := wfld C.vstart 3 0, path := C.tgpath }

/-- The entry of `scall` through e(n) (R111). -/
def scallEntry (C : Ctx) (n : SegId) : PendEntry :=
  { code := n.val, kind := 3, info := 0, seg := 0, access := 0, half := false, epc := (C.pc + 4) % 2 ^ 48, esrc := 0
    target := some (wfld C.e[n] 47 2 * 4), vstart := wfld C.vstart 3 0, path := C.tgpath }

/-- What the entry of an instruction that has completed leaves: the E registers and PC, x, and everything else. -/
theorem entered_completed (s : State) (t : Nat) (c : CtxId) (C : Ctx) (p : PendEntry) (epc : p.epc = (C.pc + 4) % 2 ^ 48) :
    let s' := setC (settle s t c) t c (enteredFrom0 (completed C) p)
    let D := getC s' t c
    D.pc = entryPc C p ∧ D.epc = toW ((C.pc + 4) % 2 ^ 48 / 4 * 4) ∧ D.estatus = toW (b2n C.sup) ∧ D.sup = true
      ∧ D.entry = 1 ∧ D.x = C.x ∧ D.ecause = causeWord p.code p.kind p.seg p.access p.half false ∧ sameButCtx s s' t c := by
  intro s' D
  have hD : D = enteredFrom0 (completed C) p := getC_setC_same ..
  have hepc : D.epc = toW ((C.pc + 4) % 2 ^ 48 / 4 * 4) := by simp only [hD, enteredFrom0, epc, Nat.mod_mod]
  rw [hD] at hepc ⊢
  exact ⟨rfl, hepc, rfl, rfl, rfl, rfl, rfl, sameButCtx_setC_settle s t c _⟩

section
variable {s : State} {t : TileId} {c : CtxId} (isReady : ready s t c [] = true) (quiet : Quiet (settle s t c) t c)
  (level : PlainLevel0 (now s t c)) (inBody : atLoopEnd (now s t c) = false)
include isReady quiet level inBody

theorem exec_brk_level0 :
    exec (.brk t c) s = .next (setC (settle s t c) t c (enteredFrom0 (completed (now s t c)) (brkEntry (now s t c)))) := by
  show Host.Outcome.next (issueWith s t c [] _ _) = _
  rw [issueWith_ready isReady]
  simp only [livelock_none, finishEntering_level0 quiet.unshadowed level inBody, getC_setC_same, getC_settle, level.group]
  exact congrArg _ (raiseEntry_completed quiet level (brkEntry (now s t c)))

theorem exec_scall_level0 {n : SegId} (valid : (now s t c).e[n].toNat.testBit 63 = true)
    (forLevel : (now s t c).sup = true ∨ (now s t c).e[n].toNat.testBit 62 = true) :
    exec (.scall t c n) s =
      .next (setC (settle s t c) t c (enteredFrom0 (completed (now s t c)) (scallEntry (now s t c) n))) := by
  have taken : (!(now s t c).e[n].toNat.testBit 63 || (!(now s t c).sup && !(now s t c).e[n].toNat.testBit 62)
      || exl (now s t c)) = false := by
    rcases forLevel with h | h <;>
      simp only [valid, h, level.exl, Bool.not_true, Bool.false_and, Bool.and_false, Bool.or_false]
  show Host.Outcome.next (issueWith s t c [] _ _) = _
  rw [issueWith_ready isReady]
  simp only [taken, Bool.false_eq_true, if_false, livelock_none, finishEntering_level0 quiet.unshadowed level inBody,
    getC_setC_same, getC_settle, level.group]
  exact congrArg _ (raiseEntry_completed quiet level (scallEntry (now s t c) n))

end

/-- `scall` through an entry that is not valid, or not for the level, raises SCALL_FAULT (R111). -/
theorem exec_scall_refused {s : State} {t : TileId} {c : CtxId} {n : SegId} (isReady : ready s t c [] = true)
    (refused : (now s t c).e[n].toNat.testBit 63 = false
      ∨ ((now s t c).sup = false ∧ (now s t c).e[n].toNat.testBit 62 = false)) :
    exec (.scall t c n) s = .next (raiseFault (settle s t c) t c (plainFault 0x0C 0)) := by
  have raised : (!(now s t c).e[n].toNat.testBit 63 || (!(now s t c).sup && !(now s t c).e[n].toNat.testBit 62)
      || exl (now s t c)) = true := by
    rcases refused with h | ⟨hsup, h⟩
    · simp only [h, Bool.not_false, Bool.true_or]
    · simp only [hsup, h, Bool.not_false, Bool.and_self, Bool.or_true, Bool.true_or]
  show Host.Outcome.next (issueWith s t c [] _ _) = _
  rw [issueWith_ready isReady]
  simp only [raised, if_true]

/-- Settles O17: both instructions complete as any does (R88) and then enter; `brk` at the vector, `scall` at its target. -/
theorem trapAndScallEnter : Obligations.TrapAndScallEnter := by
  unfold Obligations.TrapAndScallEnter
  intro s t c n C isReady hloads hmodes haccesses hfence hgroup hdfl hexl inBody
  have quiet : Quiet (settle s t c) t c := ⟨⟨hloads, now_rfaults_of_ready isReady, hmodes⟩, haccesses, hfence⟩
  have level : PlainLevel0 C := ⟨hgroup, hdfl, hexl⟩
  refine ⟨⟨_, exec_brk_level0 isReady quiet level inBody, ?_⟩,
    fun valid forLevel => ⟨_, exec_scall_level0 isReady quiet level inBody valid forLevel, ?_⟩,
    exec_scall_refused isReady⟩
  · obtain ⟨pc, epc, estatus, sup, entry, x, ecause, frame⟩ := entered_completed s t c C (brkEntry C) rfl
    exact ⟨pc, epc, estatus, sup, entry, x, ecause, frame⟩
  · obtain ⟨pc, epc, estatus, sup, entry, x, -, frame⟩ := entered_completed s t c C (scallEntry C n) rfl
    exact ⟨pc, epc, estatus, sup, entry, x, frame⟩

/-! Returns -/

/-- The context as a return restores it: level, EXL and DFL, LN_VSTART and PC (R112, R114, R143). -/
def returned (C : Ctx) (sup : Bool) (entry vstart : Word) (pc : Nat) : Ctx :=
  { C with sup := sup, entry := entry, vstart := vstart, pc := pc, lastLane := none, dbg := if C.dbg = 2 then 1 else C.dbg }

theorem returnTo_of_not_dfl {C : Ctx} (notDfl : dfl C = false) (noSlot : C.elds = 0)
    (notParked : C.tgctl.toNat.testBit 1 = false) :
    returnTo C = returned C (C.estatus.toNat.testBit 0) 0 C.evstart (wfld C.epc 47 2 * 4) := by
  simp only [returnTo, notDfl, restoreShadow_of_no_slot noSlot, groupReplay, notParked, Bool.false_eq_true, if_false]
  rfl

theorem returnTo_of_dfl {C : Ctx} (isDfl : dfl C = true) (noSlot : C.dlds = 0) :
    returnTo C = returned C (C.dstatus.toNat.testBit 0) (toW (b2n (C.dstatus.toNat.testBit 1))) C.dvstart
      (wfld C.dpc 47 2 * 4) := by
  simp only [returnTo, isDfl, restoreShadow_of_no_slot noSlot, if_true]
  rfl

section
variable {s : State} {t : TileId} {c : CtxId} (isReady : ready s t c [] = true)
include isReady

/-- A return that the level allows, with nothing in a shadow and no reserved slot in its record, restores at once. -/
theorem doReturn_restores {w : Word} {isSret : Bool} (shadows : Unshadowed (now s t c)) (sup : (now s t c).sup = true)
    (allowed : ¬ (isSret = true ∧ dfl (now s t c) = true))
    (noSlot : (if dfl (now s t c) then (now s t c).dlds else (now s t c).elds) = 0) :
    doReturn t c w isSret s = setC (settle s t c) t c (returnTo (now s t c)) := by
  have notUser : (!(now s t c).sup) = false := by rw [sup]; rfl
  have noneOut : (now s t c).loads.any (fun l => l.data.isNone && l.fault.isNone) = false := by rw [shadows.loads]; rfl
  have noneDue : (!(now s t c).rfaults.isEmpty) = false := by rw [shadows.rfaults]; rfl
  rw [doReturn, issueWith_ready isReady]
  simp only [allowed, notUser, noSlot, badLds_zero, noneOut, endShadows_of_unshadowed shadows, noneDue, Bool.false_eq_true,
    if_false, livelock_none, modC, getC_setC_same, setC_setC]

/-- At user level a return is a privileged instruction (R104). -/
theorem doReturn_at_user {w : Word} {isSret : Bool} (user : (now s t c).sup = false) (notDfl : dfl (now s t c) = false) :
    doReturn t c w isSret s = raiseFault (settle s t c) t c (plainFault 0x01 0) := by
  rw [doReturn, issueWith_ready isReady]
  simp [user, notDfl]

/-- `sret` does not return from a double fault (R112). -/
theorem doReturn_sret_in_double_fault {w : Word} (isDfl : dfl (now s t c) = true) :
    doReturn t c w true s = raiseFault (settle s t c) t c (plainFault 0x00 w) := by
  rw [doReturn, issueWith_ready isReady]
  simp [isDfl]

end

/-- Settles O18: a return that is allowed restores at once, as no shadow is left and no slot of the record is valid. -/
theorem returnsRestore : Obligations.ReturnsRestore := by
  unfold Obligations.ReturnsRestore
  intro s t c C isReady hloads hmodes hrfaults
  have shadows : Unshadowed C := ⟨hloads, hrfaults, hmodes⟩
  refine ⟨fun sup notDfl noSlot notParked => ?_, fun sup isDfl noSlot => ?_, fun _ isDfl => ?_,
    fun user notDfl => ⟨?_, ?_⟩⟩
  · have restores : ∀ w isSret, doReturn t c w isSret s = setC (settle s t c) t c
        (returned C (C.estatus.toNat.testBit 0) 0 C.evstart (wfld C.epc 47 2 * 4)) := fun w isSret => by
      rw [doReturn_restores isReady shadows sup (by simp [C, notDfl]) (by simp [C, notDfl, noSlot]),
        returnTo_of_not_dfl notDfl noSlot notParked]
    exact ⟨congrArg _ (restores _ true), congrArg _ (restores _ false)⟩
  · have restores : doReturn t c (wordInfo (.eret t c)) false s = setC (settle s t c) t c (returnTo C) :=
      doReturn_restores isReady shadows sup (by simp) (by simp [C, isDfl, noSlot])
    rw [returnTo_of_dfl isDfl noSlot] at restores
    exact congrArg _ restores
  · exact congrArg _ (doReturn_sret_in_double_fault isReady isDfl)
  · exact congrArg _ (doReturn_at_user isReady user notDfl)
  · exact congrArg _ (doReturn_at_user isReady user notDfl)

/-! Words of no instruction and fetches that fail -/

theorem exec_illegalWord {s : State} {t : TileId} {c : CtxId} {w : BitVec 32} (isReady : ready s t c [] = true)
    (noInstr : decodeWord t c w.toNat = none) :
    exec (.illegalWord t c w) s = .next (raiseFault (settle s t c) t c (plainFault 0x00 (w.setWidth 64))) := by
  show execIllegalWord t c w s = _
  rw [execIllegalWord, noInstr]
  exact congrArg _ (issueWith_ready isReady)

/-- The fault of a fetch that fails its check or meets no memory: the PC in TL_EINFO and no access fields (R75, R119). -/
def pcFault (C : Ctx) (code : Nat) : FaultInfo := { code := code, info := toW C.pc, seg := 0, access := 0, half := false }

theorem fetchFault_of_check {s : State} {C : Ctx} {code : Nat} (h : segCheck C 0 C.pc 4 0 = some code) :
    fetchFault s C = some (pcFault C code) := by
  simp only [fetchFault, h]
  rfl

/-- A hole and a control space hold no instructions (R39). -/
theorem fetchFault_of_place {s : State} {C : Ctx} {g o : Nat} (check : segCheck C 0 C.pc 4 0 = none)
    (place : placeOf s (segAddr C 0 C.pc) = .hole ∨ placeOf s (segAddr C 0 C.pc) = .ctrl g o) :
    fetchFault s C = some (pcFault C 0x07) := by
  rcases place with h | h <;> simp only [fetchFault, check, h] <;> rfl

theorem fetchFault_of_window {s : State} {C : Ctx} {g o : Nat} (check : segCheck C 0 C.pc 4 0 = none)
    (place : placeOf s (segAddr C 0 C.pc) = .window g o) : fetchFault s C = none := by
  simp only [fetchFault, check, place]

/-- The entry for a fetch whose response brought a fault (R109, R110). -/
def fetchEntry (C : Ctx) (code : Nat) : PendEntry :=
  { code := code, kind := 2, info := toW (segAddr C 0 C.pc), seg := 0, access := 0, half := false, epc := C.pc, esrc := C.pc
    target := none, vstart := wfld C.vstart 3 0, path := C.tgpath }

section
variable {s : State} {t : TileId} {c : CtxId} (issues : canIssue (settle s t c) t c = true)
include issues

theorem exec_instructionFetchFault_of_fault {f : FaultInfo} (fault : fetchFault (settle s t c) (now s t c) = some f) :
    exec (.instructionFetchFault t c) s = .next (raiseFault (settle s t c) t c f) := by
  show execInstructionFetchFault t c s = _
  simp only [execInstructionFetchFault, issues, Bool.not_true, Bool.false_eq_true, if_false, getC_settle, fault]

theorem exec_instructionFetchFault_of_response {s' : State} {code : Nat} (noFault : fetchFault (settle s t c) (now s t c) = none)
    (response : fetchResponse (settle s t c) t c (segAddr (now s t c) 0 (now s t c).pc) = (some code, s')) :
    exec (.instructionFetchFault t c) s = .next
      (raiseEntry (modC s' t c (fun C => { C with fetchBad := none })) t c (fetchEntry (now s t c) code)) := by
  show execInstructionFetchFault t c s = _
  simp only [execInstructionFetchFault, issues, Bool.not_true, Bool.false_eq_true, if_false, getC_settle, noFault, response]
  rfl

end

/-- A tile store behind a fence answers FENCED, where no response has brought a fault before (R243). -/
theorem fetchResponse_of_fenced_window {s : State} {t : Nat} {c : CtxId} {a g o : Nat} (noBad : (getC s t c).fetchBad = none)
    (place : placeOf s a = .window g o) (h : fenced s (g / 64) = true) : fetchResponse s t c a = (some 0x11, s) := by
  simp only [getC] at noBad
  simp only [fetchResponse, noBad, Option.filter_none, place, h, if_true]

/-- A response that brought a fault for the address or its sector gives its cause (R39). -/
theorem fetchResponse_of_fetchBad {s : State} {t : Nat} {c : CtxId} {a x code : Nat}
    (bad : (getC s t c).fetchBad = some (x, code)) (at_ : x = a ∨ x = a / 32 * 32) :
    fetchResponse s t c a = (some code, s) := by
  have here : (x == a || x == a / 32 * 32) = true := by simpa using at_
  simp only [getC] at bad
  simp only [fetchResponse, bad, Option.filter_some, here, if_true]

/-- Settles O32: each clause names what the fetch meets, by its check, by its place, by a fence or by its response. -/
theorem illegalWordsAndFetchFaults : Obligations.IllegalWordsAndFetchFaults := by
  unfold Obligations.IllegalWordsAndFetchFaults
  intro s t c w code g o x s1 C a at0 enters
  refine ⟨exec_illegalWord, fun issues => ⟨fun check => ?_, fun check place => ?_, fun check place isFenced noBad => ?_,
    fun noFault bad at_ => ?_⟩⟩
  · exact exec_instructionFetchFault_of_fault issues (fetchFault_of_check check)
  · exact exec_instructionFetchFault_of_fault issues (fetchFault_of_place check place)
  · exact exec_instructionFetchFault_of_response issues (fetchFault_of_window check place)
      (fetchResponse_of_fenced_window noBad place isFenced)
  · exact exec_instructionFetchFault_of_response issues noFault (fetchResponse_of_fetchBad bad at_)

end Machine
end Sys2Proof
